-- ==== Sys2Proof/Word.lean ====
section
/-! DEFINITION. The words of the CORE: the widths `00_scope.md` rule R13 and `10_state.md` rule R33 give. -/

namespace Sys2Proof

/-- One byte: a command (R30), an event kind (R107), a byte of the WAV image (R79). -/
abbrev Byte := BitVec 8

/-- A text element as it stands on the `TXT` channel, 21 bits (R97). -/
abbrev Elem := BitVec 21

/-- A bit-unit as it stands on the `BITS` channel, 2 bits (R96). -/
abbrev UnitCode := BitVec 2

/-- A sample as it stands on the `PCM` channel, one 16-bit two's-complement word (R67). -/
abbrev Sample := BitVec 16

end Sys2Proof
end

