-- ==== Sys2Proof/Syntax.lean ====
section
/-! DEFINITION. The syntax: one constructor of `Instr` for each of the 122 rows of `spec/opcode_table.json`
(`30_encoding.md` rule R113), and the types of its operands (`00_scope.md` rule R15). -/

namespace Sys2Proof

/-- A transmission mode (R15, R23). -/
inductive Mode where
  | lat
  | figs
  | rus
  deriving DecidableEq, Repr, Inhabited

/-- The class of a key: the mode it needs, or neutral (R15). -/
inductive SymClass where
  | mode (m : Mode)
  | neutral
  deriving DecidableEq, Repr, Inhabited

/-- Five data bits in transmission order, `b1` sent first; not a number (R14). -/
structure Code5 where
  b1 : Bool
  b2 : Bool
  b3 : Bool
  b4 : Bool
  b5 : Bool
  deriving DecidableEq, Repr, Inhabited

/-- A key of the Symbol Table: a character or a mode marker (R15). -/
inductive Key where
  | char (c : Elem)
  | marker (m : Mode)
  deriving DecidableEq, Repr, Inhabited

/-- The semantic tag of an event (R109). -/
inductive Tag where
  | info
  | warn
  | highlight
  deriving DecidableEq, Repr, Inhabited

/-- Which value an `EV_INVALID_CONFIG` event is about (R108: 1 baud, 2 mark, 3 space, 4 volume). -/
inductive ConfigItem where
  | baud
  | mark
  | space
  | volume
  deriving DecidableEq, Repr, Inhabited

/-- The four numbers SYNTHESIZE takes, in the formats of their registers (R190, R25 to R28). -/
structure SynParams where
  baudCb : BitVec 32
  markHz : BitVec 16
  spaceHz : BitVec 16
  volPct : BitVec 8
  deriving DecidableEq, Repr, Inhabited

/-- The thirteen event kinds (R108). -/
inductive EvKind where
  | text
  | encBegin
  | char
  | unsupported
  | encSummary
  | emptyInput
  | invalidConfig
  | playbackFinished
  | txComplete
  | txStopped
  | deviceFail
  | persistFail
  | saved
  deriving DecidableEq, Repr, Inhabited

/-- The payload of an event, by kind (R107, R108). The host's cause and location are texts. -/
inductive Payload where
  | none
  | text (t : List Elem)
  | charCode (c : Elem) (code : Code5)
  | char (c : Elem)
  | count (n : Nat)
  | config (which : ConfigItem) (value : Int)
  deriving DecidableEq, Repr, Inhabited

/-- An event record on `EVT`: the triple (kind, tag, payload) (R107). -/
structure Event where
  kind : EvKind
  tag : Tag
  payload : Payload
  deriving DecidableEq, Repr, Inhabited

/-- The instructions: one constructor per row of the opcode table. -/
inductive Instr where
  -- FRAME8: symbols that need `LAT` (R159, R158)
  | latA  -- `A`
  | latB  -- `B`
  | latC  -- `C`
  | latD  -- `D`
  | latE  -- `E`
  | latF  -- `F`
  | latG  -- `G`
  | latH  -- `H`
  | latI  -- `I`
  | latJ  -- `J`
  | latK  -- `K`
  | latL  -- `L`
  | latM  -- `M`
  | latN  -- `N`
  | latO  -- `O`
  | latP  -- `P`
  | latQ  -- `Q`
  | latR  -- `R`
  | latS  -- `S`
  | latT  -- `T`
  | latU  -- `U`
  | latV  -- `V`
  | latW  -- `W`
  | latX  -- `X`
  | latY  -- `Y`
  | latZ  -- `Z`
  -- FRAME8: symbols that need `FIGS`: digits, punctuation, the five Cyrillic letters of R135
  | fig0  -- `0`
  | fig1  -- `1`
  | fig2  -- `2`
  | fig3  -- `3`
  | fig4  -- `4`
  | fig5  -- `5`
  | fig6  -- `6`
  | fig7  -- `7`
  | fig8  -- `8`
  | fig9  -- `9`
  | figMinus  -- `-`
  | figPlus  -- `+`
  | figQuestion  -- `?`
  | figColon  -- `:`
  | figLeft  -- `(`
  | figRight  -- `)`
  | figDot  -- `.`
  | figComma  -- `,`
  | figSlash  -- `/`
  | figSha  -- `Ш`
  | figShcha  -- `Щ`
  | figE  -- `Э`
  | figYu  -- `Ю`
  | figChe  -- `Ч`
  -- FRAME8: symbols that need `RUS`
  | rusA  -- `А`
  | rusBe  -- `Б`
  | rusVe  -- `В`
  | rusGhe  -- `Г`
  | rusDe  -- `Д`
  | rusIe  -- `Е`
  | rusZhe  -- `Ж`
  | rusZe  -- `З`
  | rusI  -- `И`
  | rusShortI  -- `Й`
  | rusKa  -- `К`
  | rusEl  -- `Л`
  | rusEm  -- `М`
  | rusEn  -- `Н`
  | rusO  -- `О`
  | rusPe  -- `П`
  | rusEr  -- `Р`
  | rusEs  -- `С`
  | rusTe  -- `Т`
  | rusU  -- `У`
  | rusEf  -- `Ф`
  | rusHa  -- `Х`
  | rusTse  -- `Ц`
  | rusHard  -- `Ъ`
  | rusYeru  -- `Ы`
  | rusSoft  -- `Ь`
  | rusYa  -- `Я`
  | rusIo  -- `Ё`
  -- FRAME8: the space (R157), the carriage return and the line feed (R172)
  | sp  -- `SP`
  | cr  -- `CR`
  | lf  -- `LF`
  -- FRAME8: the three mode markers (R158)
  | markLat  -- `LAT`
  | markFigs  -- `FIGS`
  | markRus  -- `RUS`
  -- UNIT2: the bit-units (R207, R208, R209) and the reserved code (R96)
  | u0
  | u1
  | uh
  | unitReserved
  -- PSEUDO: the four inserted sequences (R101)
  | startSeq
  | closeSeq
  | pre
  | post
  -- CMD8: the commands (R30)
  | nop
  | start
  | stop
  | cmdReserved (v : Byte)
  -- ACCESS: register access, the text, the reset input (R247, R249, R248)
  | regRd (n : Nat)
  | regWr (n : Nat) (v : BitVec 64)
  | txtWr (text : List Elem)
  | reset
  -- FUNC: the public operations and the named functions
  | encode (text : List Elem) (verbose : Bool)
  | synthesize (units : List UnitCode) (c : SynParams)
  | grd
  | lookup (k : Key)
  | upper (c : Elem)
  | modeOf (k : Key)
  | emit (k : Key)
  | seg (f : BitVec 16) (d : Rat)
  | amp (θ : Rat) (v : Rat)
  -- EVT: the event records (R108)
  | evText (text : List Elem)
  | evEncBegin
  | evChar (c : Elem) (code : Code5)
  | evUnsupported (c : Elem)
  | evEncSummary (n : Nat)
  | evEmptyInput
  | evInvalidConfig (which : ConfigItem) (value : Int)
  | evPlaybackFinished
  | evTxComplete
  | evTxStopped
  | evDeviceFail
  | evPersistFail (cause : List Elem)
  | evSaved (location : List Elem)
  deriving DecidableEq, Repr

end Sys2Proof
end

