-- ==== Sys2Proof/Machine/Regs.lean ====
section
/-! DEFINITION. The groups of hidden registers of the CORE: the latched configuration, the working registers of the
encoder and of the synthesizer (`10_state.md` rules R34, R35, R36). -/

namespace Sys2Proof

/-- The latched configuration: what a session reads in place of the configuration registers (R34). -/
structure Latched where
  params : SynParams
  verbose : Bool
  deriving DecidableEq, Repr, Inhabited

/-- The encoder working registers, live only while `STATE` = `ENCODING` (R35). -/
structure EncRegs where
  /-- `TXT_POS`: the index of the next text element to read. -/
  txtPos : Nat
  /-- `CUR`: the current character after `UPPER`. -/
  cur : Elem
  /-- `UNIT_CNT`: bit-units pushed so far. -/
  unitCnt : Nat
  deriving DecidableEq, Repr, Inhabited

/-- The synthesizer working registers, live only while `STATE` = `SYNTHESIZING` (R36). -/
structure SynRegs where
  /-- `V`: the clamped volume fraction. -/
  v : Rat
  /-- `SEG_F`: frequency of the current segment in Hz. -/
  segF : BitVec 16
  /-- `SEG_N`: number of samples of the current segment. -/
  segN : Nat
  /-- `SEG_I`: index of the sample in the segment. -/
  segI : Nat
  /-- `SAMPLE_CNT`: samples pushed so far. -/
  sampleCnt : Nat
  /-- The index `k` of the loop over the units in R191; the spec names no register for it (log 19). -/
  unitPos : Nat
  deriving DecidableEq, Repr, Inhabited

end Sys2Proof
end

