-- ==== Sys2Proof/Config.lean ====
section
/-! DEFINITION. What an implementation fixes and what the spec leaves free (`00_scope.md` rules R11, R12; U1 to U8 and
U23, U24 of `93_implementation_defined.md`). The OPEN parameters are the fields of opaque constants with no body: a claim
that names them holds for every value. -/

namespace Sys2Proof

/-- The tie rule of `ROUND`, an OPEN parameter with two values (R196). -/
inductive Tie where
  | up
  | even
  deriving DecidableEq, Repr, Inhabited

/-- Where a quantiser steps from `n` to `n + 1` between the two: at a real number given as a limit of rationals, which
itself stays below (`above`) or steps up (`notBelow`). Every non-decreasing function from the reals to the integers that
keeps the integers and stays within one of its argument is given by one such threshold for each `n` (R210). -/
inductive Threshold where
  /-- The numbers more than some `c i` step up. -/
  | above (c : Nat → Rat)
  /-- The numbers less than some `c i` stay, the others step up. -/
  | notBelow (c : Nat → Rat)
  deriving Inhabited

/-- The OPEN parameters of the CORE (R12, R39). -/
structure Impl where
  /-- `SYMTAB.code`: the five bits of a key; read through `lookup`, which answers "not found" off the 84 keys (R138). -/
  code : Key → Code5
  /-- `MODE_CTRL`: the class of CR and LF inside the text (R133, R172). -/
  modeCtrl : SymClass
  /-- `TEXT_MAX`: the longest text; used through `Impl.textLimit` (R12, U6). -/
  textMax : Nat
  /-- `ROUND` at an exact tie (R196). -/
  tie : Tie
  /-- `QUANT`: for each `n`, where it steps from `n` to `n + 1`; applied by `quantize` (R210; log 11). -/
  quant : Int → Threshold
  /-- `REG_BASE`, the bus address of the register block (R71); no rule's effect depends on it, since the host names a
  register by its number. -/
  regBase : Nat
  deriving Inhabited

/-- The OPEN parameter of the host and the host behaviours the source does not settle (R280, N24, N26). -/
structure HostImpl where
  /-- `SAVE_AFTER_STOP` = `completes`: a write in flight goes on after `stop()` (R280). -/
  saveCompletes : Bool
  /-- Under `completes` the result of that write is still reported: the rule says it may be (R280). -/
  reportAfterStop : Bool
  /-- Stopping the prior session inside a new `transmit` emits "transmission stopped" (N24, R272). -/
  priorStopEvent : Bool
  /-- `stop()` when idle emits "transmission stopped" (N26, R275). -/
  idleStopEvent : Bool
  /-- The centibaud the host writes for a baud rate that `BAUD_CB` cannot hold: "the host must round it as it sees fit"
  (R282; log 42). -/
  roundBaud : Rat → BitVec 32
  deriving Inhabited

/-- The parameters of this implementation: nothing is known of them (log 8 to log 12). -/
opaque Config.impl : Impl

/-- The host's parameters: nothing is known of them (log 27). -/
opaque Config.hostImpl : HostImpl

/-- `VOL_PCT` after a RESET: any value (R42, U7; log 15). -/
opaque Config.freeVolume : Nat → BitVec 8

/-- `CTRL.VERBOSE` after a RESET: any value (R42, U7; log 15). -/
opaque Config.freeVerbose : Nat → Bool

/-- The latched configuration after a RESET: any value (R42, U8; log 15). -/
opaque Config.freeLatched : Nat → Latched

/-- The encoder working registers outside `ENCODING`: not defined (R35, U8; log 15, log 17). -/
opaque Config.freeEnc : Nat → EncRegs

/-- The synthesizer working registers outside `SYNTHESIZING`: not defined (R36, U8; log 15, log 17). -/
opaque Config.freeSyn : Nat → SynRegs

/-- MODEOF of a marker: R133 gives a marker no class, so any answer (log 24). -/
opaque Config.freeClass : Nat → Option SymClass

/-- AMP outside its operands' domain: R199 states no sample there, so any sample (log 41). -/
opaque Config.freeSample : Nat → Sample

/-- The sample rate `FS` in Hz (R11). -/
def Config.sampleRate : Nat := 44100

/-- `T_PRE`, the length of the preamble and of the postamble in seconds (R11). -/
def Config.preDuration : Rat := 3 / 10

/-- `A_HALF`, the peak amplitude at volume 1: 32767/2 (R211). -/
def Config.aHalf : Rat := 32767 / 2

/-- The longest text: `TEXT_MAX`, which the 64-bit counters size at 2^32 - 1 at most (R12, R32, D23; log 12). -/
def Impl.textLimit (p : Impl) : Nat := min p.textMax (2 ^ 32 - 1)

end Sys2Proof
end

