-- ==== Sys2Proof/Machine/Arith.lean ====
section
/-! DEFINITION. The exact rational arithmetic of the rules: `frac`, `clamp`, `ROUND` (`00_scope.md` rule R16,
`42_fsk_synthesizer.md` rule R196). -/

namespace Sys2Proof.Machine

/-- `frac(q)` = `q - floor(q)`, a `Turn` (R16). -/
def frac (q : Rat) : Rat := q - (q.floor : Rat)

/-- `clamp(q, lo, hi)` (R16). -/
def clamp (q lo hi : Rat) : Rat := if q < lo then lo else if hi < q then hi else q

/-- `ROUND(q)` for `q ≥ 0`: the nearest natural; the tie rule is the OPEN parameter (R196). -/
def roundTie (tie : Tie) (q : Rat) : Nat :=
  let n := q.floor.toNat
  let r := frac q
  if r < 1 / 2 then n
  else if 1 / 2 < r then n + 1
  else match tie with
    | .up => n + 1
    | .even => if n % 2 = 0 then n else n + 1

end Sys2Proof.Machine
end

