-- ==== Sys2Proof/Machine/Sine.lean ====
section
/-! DEFINITION. The sine of a phase, the quantiser and the amplitude of a sample (`42_fsk_synthesizer.md` rules R199, R210,
R211, R213). The sine is the exact real number: it is held by rational bounds `b 0, b 1, …` that close on it, and a bound
is used only where it settles what the exact number gives. `Laws/Sine.lean` proves that `ampInt` is the quantiser of the
exact real number, `ampReal` of `Safety.lean`. -/

namespace Sys2Proof.Machine

/-- Rational bounds of a real number. -/
structure Bounds where
  lo : Rat
  hi : Rat
  deriving DecidableEq, Repr

/-- The bounds of the negated number. -/
def Bounds.neg (b : Bounds) : Bounds := ⟨-b.hi, -b.lo⟩

/-- The bounds of the number times a factor. -/
def Bounds.scale (b : Bounds) (a : Rat) : Bounds := if 0 ≤ a then ⟨b.lo * a, b.hi * a⟩ else ⟨b.hi * a, b.lo * a⟩

/-! ## The exact sine -/

/-- `f 0 - f 1 + f 2 - …`, the first `n` terms. -/
def alternatingSum (f : Nat → Rat) : Nat → Rat
  | 0 => 0
  | n + 1 => alternatingSum f n + (-1) ^ n * f n

/-- How many terms of each series the bounds at level `k` take; the number is even. -/
def terms (k : Nat) : Nat := 2 * (k + 7)

/-- The terms of the series of `arctan(1/q)`. -/
def arctanTerm (q i : Nat) : Rat := (1 / (q : Rat)) ^ (2 * i + 1) / ((2 * i + 1 : Nat) : Rat)

/-- The terms of the series of the sine at `y`. -/
def sineTerm (y : Rat) (i : Nat) : Rat := y ^ (2 * i + 1) / ((2 * i + 1).factorial : Rat)

/-- Bounds of the sum of a series with alternating signs and falling terms: an even and an odd number of terms. -/
def seriesBounds (f : Nat → Rat) (k : Nat) : Bounds := ⟨alternatingSum f (terms k), alternatingSum f (terms k + 1)⟩

/-- Bounds of π by Machin's formula `π = 16 arctan(1/5) - 4 arctan(1/239)`. -/
def piBounds (k : Nat) : Bounds :=
  let a := seriesBounds (arctanTerm 5) k
  let b := seriesBounds (arctanTerm 239) k
  ⟨max 3 (16 * a.lo - 4 * b.hi), min 4 (16 * a.hi - 4 * b.lo)⟩

/-- Bounds of `sin(2πt)` for `t` in [0, 1/4]: the exact number at 0, 1/12, 1/4, the only `t` with a rational sine (R213);
elsewhere the series at a rational angle, widened by how far that angle may lie from `2πt`. -/
def sinQuarter (t : Rat) (k : Nat) : Bounds :=
  if t = 0 then ⟨0, 0⟩
  else if t = 1 / 12 then ⟨1 / 2, 1 / 2⟩
  else if t = 1 / 4 then ⟨1, 1⟩
  else
    let p := piBounds k
    let s := seriesBounds (sineTerm (2 * p.lo * t)) k
    let e := 2 * (p.hi - p.lo) * t
    ⟨s.lo - e, s.hi + e⟩

/-- Bounds of `sin(2πθ)` for a phase in [0, 1). -/
def sinPhase (θ : Rat) (k : Nat) : Bounds :=
  if θ ≤ 1 / 4 then sinQuarter θ k
  else if θ ≤ 1 / 2 then sinQuarter (1 / 2 - θ) k
  else if θ ≤ 3 / 4 then (sinQuarter (θ - 1 / 2) k).neg
  else (sinQuarter (1 - θ) k).neg

/-- Bounds of `sin(2πθ)`; the sine has period one turn (R200). -/
def sinTurn (θ : Rat) (k : Nat) : Bounds := sinPhase (frac θ) k

/-- Bounds of `sin(2πθ) × v × A_HALF` (R199, R211). -/
def ampBounds (θ v : Rat) (k : Nat) : Bounds := (sinTurn θ k).scale (v * Config.aHalf)

/-! ## The quantiser (R210) -/

/-- Where a real number lies among the integers. -/
inductive Place where
  /-- It is `n`. -/
  | exactly (n : Int)
  /-- It is more than `n` and less than `n + 1`. -/
  | between (n : Int)
  deriving DecidableEq, Repr

/-- Where the number lies, if its bounds settle it. -/
def Bounds.place (b : Bounds) : Option Place :=
  let n := b.lo.floor
  if b.lo = n ∧ b.hi = n then some (.exactly n)
  else if (n : Rat) < b.lo ∧ b.hi < n + 1 then some (.between n)
  else none

/-- The first answer among `f n, f (n + 1), …`; none if there is none. -/
def firstSome {α : Type} (f : Nat → Option α) (n : Nat) : Option α :=
  match f n with
  | some a => some a
  | none => firstSome f (n + 1)
partial_fixpoint

/-- Some bound puts the number above the cut `c`. -/
def someAbove (x : Nat → Bounds) (c : Nat → Rat) : Bool :=
  (firstSome (fun j => if c j.unpair.1 < (x j.unpair.2).lo then some () else none) 0).isSome

/-- Some bound puts the number below one of the numbers `c`. -/
def someBelow (x : Nat → Bounds) (c : Nat → Rat) : Bool :=
  (firstSome (fun j => if (x j.unpair.2).hi < c j.unpair.1 then some () else none) 0).isSome

/-- The number lies on the upper side of the threshold. -/
def pastThreshold (t : Threshold) (x : Nat → Bounds) : Bool :=
  match t with
  | .above c => someAbove x c
  | .notBelow c => !someBelow x c

/-- `QUANT` of the real number that the bounds `x` close on: an integer is kept, a number between two integers goes to
the upper one past the threshold between them, else to the lower one (R210). -/
def quantize (p : Impl) (x : Nat → Bounds) : Int :=
  match firstSome (fun k => (x k).place) 0 with
  | some (.exactly n) => n
  | some (.between n) => if pastThreshold (p.quant n) x then n + 1 else n
  | none => (x 0).lo.floor

/-- `AMP(θ, v) = QUANT(sin(2π × θ) × v × A_HALF)` as an integer (R199). -/
def ampInt (p : Impl) (θ v : Rat) : Int := quantize p (ampBounds θ v)

/-- `AMP(θ, v)` as the 16-bit word on `PCM` (R199, R67). -/
def amp (p : Impl) (θ v : Rat) : Sample := BitVec.ofInt 16 (ampInt p θ v)

end Sys2Proof.Machine
end

