-- ==== Sys2Proof/Machine/SymbolTable.lean ====
section
/-! DEFINITION. The Symbol Table ST as far as the spec fixes it: the 81 character keys and their classes
(`40_symbol_table.md` rules R133, R134, R135) and the row of the opcode table each key selects. The 5-bit codes are the
OPEN parameter `Impl.code` of `Config.lean` (R138). -/

namespace Sys2Proof

/-- The class of a row of the table: a mode, neutral, or the class of CR and LF, which is the OPEN parameter
`MODE_CTRL` (R133). -/
inductive RowClass where
  | needs (m : Mode)
  | neutral
  | ctrl
  deriving DecidableEq, Repr

/-- One row of the table: a scalar value, its class, the instruction it selects. -/
structure SymRow where
  elem : Elem
  cls : RowClass
  instr : Instr
  deriving DecidableEq, Repr

/-- The 26 keys of class `LAT`: `A` to `Z` (R133). -/
def latRows : List SymRow :=
  [⟨0x0041#21, .needs .lat, .latA⟩,
   ⟨0x0042#21, .needs .lat, .latB⟩,
   ⟨0x0043#21, .needs .lat, .latC⟩,
   ⟨0x0044#21, .needs .lat, .latD⟩,
   ⟨0x0045#21, .needs .lat, .latE⟩,
   ⟨0x0046#21, .needs .lat, .latF⟩,
   ⟨0x0047#21, .needs .lat, .latG⟩,
   ⟨0x0048#21, .needs .lat, .latH⟩,
   ⟨0x0049#21, .needs .lat, .latI⟩,
   ⟨0x004A#21, .needs .lat, .latJ⟩,
   ⟨0x004B#21, .needs .lat, .latK⟩,
   ⟨0x004C#21, .needs .lat, .latL⟩,
   ⟨0x004D#21, .needs .lat, .latM⟩,
   ⟨0x004E#21, .needs .lat, .latN⟩] ++
  [⟨0x004F#21, .needs .lat, .latO⟩,
   ⟨0x0050#21, .needs .lat, .latP⟩,
   ⟨0x0051#21, .needs .lat, .latQ⟩,
   ⟨0x0052#21, .needs .lat, .latR⟩,
   ⟨0x0053#21, .needs .lat, .latS⟩,
   ⟨0x0054#21, .needs .lat, .latT⟩,
   ⟨0x0055#21, .needs .lat, .latU⟩,
   ⟨0x0056#21, .needs .lat, .latV⟩,
   ⟨0x0057#21, .needs .lat, .latW⟩,
   ⟨0x0058#21, .needs .lat, .latX⟩,
   ⟨0x0059#21, .needs .lat, .latY⟩,
   ⟨0x005A#21, .needs .lat, .latZ⟩]

/-- The 24 keys of class `FIGS`: ten digits, nine punctuation marks, and Ш, Щ, Э, Ю, Ч (R133, R135). -/
def figRows : List SymRow :=
  [⟨0x0030#21, .needs .figs, .fig0⟩,
   ⟨0x0031#21, .needs .figs, .fig1⟩,
   ⟨0x0032#21, .needs .figs, .fig2⟩,
   ⟨0x0033#21, .needs .figs, .fig3⟩,
   ⟨0x0034#21, .needs .figs, .fig4⟩,
   ⟨0x0035#21, .needs .figs, .fig5⟩,
   ⟨0x0036#21, .needs .figs, .fig6⟩,
   ⟨0x0037#21, .needs .figs, .fig7⟩,
   ⟨0x0038#21, .needs .figs, .fig8⟩,
   ⟨0x0039#21, .needs .figs, .fig9⟩,
   ⟨0x002D#21, .needs .figs, .figMinus⟩,
   ⟨0x002B#21, .needs .figs, .figPlus⟩,
   ⟨0x003F#21, .needs .figs, .figQuestion⟩,
   ⟨0x003A#21, .needs .figs, .figColon⟩] ++
  [⟨0x0028#21, .needs .figs, .figLeft⟩,
   ⟨0x0029#21, .needs .figs, .figRight⟩,
   ⟨0x002E#21, .needs .figs, .figDot⟩,
   ⟨0x002C#21, .needs .figs, .figComma⟩,
   ⟨0x002F#21, .needs .figs, .figSlash⟩,
   ⟨0x0428#21, .needs .figs, .figSha⟩,
   ⟨0x0429#21, .needs .figs, .figShcha⟩,
   ⟨0x042D#21, .needs .figs, .figE⟩,
   ⟨0x042E#21, .needs .figs, .figYu⟩,
   ⟨0x0427#21, .needs .figs, .figChe⟩]

/-- The 28 keys of class `RUS`: the other 27 letters А to Я, and Ё (R133). -/
def rusRows : List SymRow :=
  [⟨0x0410#21, .needs .rus, .rusA⟩,
   ⟨0x0411#21, .needs .rus, .rusBe⟩,
   ⟨0x0412#21, .needs .rus, .rusVe⟩,
   ⟨0x0413#21, .needs .rus, .rusGhe⟩,
   ⟨0x0414#21, .needs .rus, .rusDe⟩,
   ⟨0x0415#21, .needs .rus, .rusIe⟩,
   ⟨0x0416#21, .needs .rus, .rusZhe⟩,
   ⟨0x0417#21, .needs .rus, .rusZe⟩,
   ⟨0x0418#21, .needs .rus, .rusI⟩,
   ⟨0x0419#21, .needs .rus, .rusShortI⟩,
   ⟨0x041A#21, .needs .rus, .rusKa⟩,
   ⟨0x041B#21, .needs .rus, .rusEl⟩,
   ⟨0x041C#21, .needs .rus, .rusEm⟩,
   ⟨0x041D#21, .needs .rus, .rusEn⟩] ++
  [⟨0x041E#21, .needs .rus, .rusO⟩,
   ⟨0x041F#21, .needs .rus, .rusPe⟩,
   ⟨0x0420#21, .needs .rus, .rusEr⟩,
   ⟨0x0421#21, .needs .rus, .rusEs⟩,
   ⟨0x0422#21, .needs .rus, .rusTe⟩,
   ⟨0x0423#21, .needs .rus, .rusU⟩,
   ⟨0x0424#21, .needs .rus, .rusEf⟩,
   ⟨0x0425#21, .needs .rus, .rusHa⟩,
   ⟨0x0426#21, .needs .rus, .rusTse⟩,
   ⟨0x042A#21, .needs .rus, .rusHard⟩,
   ⟨0x042B#21, .needs .rus, .rusYeru⟩,
   ⟨0x042C#21, .needs .rus, .rusSoft⟩,
   ⟨0x042F#21, .needs .rus, .rusYa⟩,
   ⟨0x0401#21, .needs .rus, .rusIo⟩]

/-- The space, which is neutral, and CR and LF, whose class is `MODE_CTRL` (R133, R172). -/
def otherRows : List SymRow :=
  [⟨0x0020#21, .neutral, .sp⟩,
   ⟨0x000D#21, .ctrl, .cr⟩,
   ⟨0x000A#21, .ctrl, .lf⟩]

/-- The 81 character keys of the table (R134). -/
def symRows : List SymRow := latRows ++ figRows ++ rusRows ++ otherRows

/-- The row of a character key; none stands for "not found" (R131, R134). -/
def rowOf (c : Elem) : Option SymRow := symRows.find? fun r => r.elem == c

/-- The element is a Unicode scalar value: U+0000 to U+D7FF or U+E000 to U+10FFFF (R62). -/
def isScalar (c : Elem) : Bool :=
  c.toNat < 0xD800 || (0xE000 ≤ c.toNat && c.toNat ≤ 0x10FFFF)

/-- The key is one of the 84 of R134: a character of the table or any of the three markers. -/
def Key.present : Key → Bool
  | .char c => (rowOf c).isSome
  | .marker _ => true

/-- A `Char` key is a key for a Unicode scalar value (R15). -/
def Key.wellFormed : Key → Bool
  | .char c => isScalar c
  | .marker _ => true

end Sys2Proof
end

