-- ==== Sys2Proof/WellFormed.lean ====
section
/-! DEFINITION. Which instructions are well formed: the operand domains the rules of the opcode table's rows give. -/

namespace Sys2Proof

/-- The operands lie in the domains the spec gives them. -/
def Instr.wellFormed : Instr → Bool
  | .cmdReserved v => 3 ≤ v.toNat                    -- R112: values 3 to 255
  | .regRd n => n ≤ 8                                -- R33, R71: register numbers 0 to 8
  | .regWr n _ => n ≤ 8
  | .txtWr text => text.all isScalar                 -- R62: a text element is a scalar value
  | .encode text _ => text.all isScalar
  | .lookup k => k.wellFormed                        -- R15: a key is for a scalar value
  | .upper c => isScalar c                           -- R132
  | .modeOf k => k.wellFormed
  | .emit k => k.present                             -- R152: a key that LOOKUP finds
  | .seg f d => f != 0 && decide (0 < d)             -- R198: positive frequency and duration
  | .evText text => text.all isScalar
  | .evChar c _ => isScalar c
  | .evUnsupported c => isScalar c
  | .evPersistFail cause => cause.all isScalar
  | .evSaved location => location.all isScalar
  | .latA | .latB | .latC | .latD | .latE | .latF | .latG | .latH | .latI | .latJ | .latK | .latL | .latM
  | .latN | .latO | .latP | .latQ | .latR | .latS | .latT | .latU | .latV | .latW | .latX | .latY | .latZ
  | .fig0 | .fig1 | .fig2 | .fig3 | .fig4 | .fig5 | .fig6 | .fig7 | .fig8 | .fig9 | .figMinus | .figPlus
  | .figQuestion | .figColon | .figLeft | .figRight | .figDot | .figComma | .figSlash | .figSha | .figShcha
  | .figE | .figYu | .figChe | .rusA | .rusBe | .rusVe | .rusGhe | .rusDe | .rusIe | .rusZhe | .rusZe
  | .rusI | .rusShortI | .rusKa | .rusEl | .rusEm | .rusEn | .rusO | .rusPe | .rusEr | .rusEs | .rusTe
  | .rusU | .rusEf | .rusHa | .rusTse | .rusHard | .rusYeru | .rusSoft | .rusYa | .rusIo | .sp | .cr
  | .lf | .markLat | .markFigs | .markRus | .u0 | .u1 | .uh | .unitReserved | .startSeq | .closeSeq | .pre
  | .post | .nop | .start | .stop | .reset | .synthesize _ _ | .grd | .evEncBegin | .evEncSummary _ | .evEmptyInput
  | .evInvalidConfig _ _ | .evPlaybackFinished | .evTxComplete | .evTxStopped | .evDeviceFail | .amp _ _ => true

end Sys2Proof
end

