-- ==== Sys2Proof/Decode.lean ====
section
/-! DEFINITION. The encodings (`30_encoding.md`): the frame of a symbol, the code of a bit-unit, the command byte, the
event record, and one total decoder and one encoder over them. The spec gives bits to four formats only; the rows of the
formats PSEUDO, ACCESS and FUNC "have no encoding" (R113) and stand here as the transactions they are (log 5). -/

namespace Sys2Proof

/-! ## The frame (R90, R91) -/

/-- `unit(b)`: a data bit 0 is sent as `U0` = `0b00`, a data bit 1 as `U1` = `0b01` (R91, R96). -/
def unitOfBit (b : Bool) : UnitCode := if b then 0b01#2 else 0b00#2

/-- FRAME8: start `U0`, the five data bits in list order, stop `U1`, half-stop `UH` (R90, R91). -/
def frame (code : Code5) : List UnitCode :=
  [0b00#2, unitOfBit code.b1, unitOfBit code.b2, unitOfBit code.b3, unitOfBit code.b4, unitOfBit code.b5,
   0b01#2, 0b10#2]

/-- A data unit read back as a bit; `UH` and the reserved code are no data bits (R90). -/
def bitOfUnit (u : UnitCode) : Option Bool :=
  if u = 0b00#2 then some false else if u = 0b01#2 then some true else none

/-- Eight units read back as a frame: the five data bits if the start, stop and half-stop units stand in their places
(R90, R99). The mode is not needed for the frame's boundaries; which key the bits stand for is not read back (R9). -/
def parseFrame : List UnitCode → Option Code5
  | [s, d1, d2, d3, d4, d5, p, h] =>
    if s = 0b00#2 ∧ p = 0b01#2 ∧ h = 0b10#2 then
      match bitOfUnit d1, bitOfUnit d2, bitOfUnit d3, bitOfUnit d4, bitOfUnit d5 with
      | some b1, some b2, some b3, some b4, some b5 => some ⟨b1, b2, b3, b4, b5⟩
      | _, _, _, _, _ => none
    else none
  | _ => none

/-- A sequence of units cut into frames of eight, each read back (R92, R99); the first argument bounds the number of
frames read. -/
def parseFrames : Nat → List UnitCode → Option (List Code5)
  | _, [] => some []
  | 0, _ :: _ => none
  | n + 1, u :: us =>
    match parseFrame ((u :: us).take 8), parseFrames n ((u :: us).drop 8) with
    | some c, some cs => some (c :: cs)
    | _, _ => none

/-! ## Codes of the small types -/

/-- `MODE`: `LAT` = 0, `FIGS` = 1, `RUS` = 2 (R23). -/
def Mode.code : Mode → BitVec 2
  | .lat => 0
  | .figs => 1
  | .rus => 2

/-- `INFO` = 0, `WARN` = 1, `HIGHLIGHT` = 2 (R109). -/
def Tag.code : Tag → BitVec 2
  | .info => 0
  | .warn => 1
  | .highlight => 2

/-- The kind byte of an event (R108). -/
def EvKind.code : EvKind → Byte
  | .text => 0x01
  | .encBegin => 0x02
  | .char => 0x03
  | .unsupported => 0x04
  | .encSummary => 0x05
  | .emptyInput => 0x06
  | .invalidConfig => 0x07
  | .playbackFinished => 0x10
  | .txComplete => 0x11
  | .txStopped => 0x12
  | .deviceFail => 0x13
  | .persistFail => 0x14
  | .saved => 0x15

/-- The tag each kind carries (R108). -/
def EvKind.tag : EvKind → Tag
  | .text => .highlight
  | .unsupported | .emptyInput | .invalidConfig | .deviceFail | .persistFail => .warn
  | .encBegin | .char | .encSummary | .playbackFinished | .txComplete | .txStopped | .saved => .info

/-- The event kind of a byte; all other kinds are reserved (R108). -/
def evKindOf (b : Byte) : Option EvKind :=
  match b.toNat with
  | 0x01 => some .text
  | 0x02 => some .encBegin
  | 0x03 => some .char
  | 0x04 => some .unsupported
  | 0x05 => some .encSummary
  | 0x06 => some .emptyInput
  | 0x07 => some .invalidConfig
  | 0x10 => some .playbackFinished
  | 0x11 => some .txComplete
  | 0x12 => some .txStopped
  | 0x13 => some .deviceFail
  | 0x14 => some .persistFail
  | 0x15 => some .saved
  | _ => none

/-- The `which` number of an `EV_INVALID_CONFIG` payload: 1 baud, 2 mark, 3 space, 4 volume (R108). -/
def ConfigItem.code : ConfigItem → Nat
  | .baud => 1
  | .mark => 2
  | .space => 3
  | .volume => 4

/-! ## What is decoded -/

/-- The four sequences the sequencer inserts by itself (R101). -/
inductive PseudoCode where
  | startSeq
  | closeSeq
  | pre
  | post
  deriving DecidableEq, Repr

/-- A call of a public operation or of a named function; the table gives these rows no encoding (R113). -/
inductive Call where
  | encode (text : List Elem) (verbose : Bool)
  | synthesize (units : List UnitCode) (c : SynParams)
  | grd
  | lookup (k : Key)
  | upper (c : Elem)
  | modeOf (k : Key)
  | emit (k : Key)
  | seg (f : BitVec 16) (d : Rat)
  | amp (θ v : Rat)
  deriving DecidableEq, Repr

/-- An encoded instruction, as the agent that runs it meets it: a text element or a marker (FRAME8 rows are selected by
their key, R98), a unit code (UNIT2), a command byte (CMD8), an event record (EVT), or a transaction of a format with no
encoding. -/
inductive Code where
  | elem (c : Elem)
  | marker (m : BitVec 2)
  | unit (u : UnitCode)
  | pseudo (p : PseudoCode)
  | cmd (b : Byte)
  | regRd (n : Nat)
  | regWr (n : Nat) (v : BitVec 64)
  | txtWr (text : List Elem)
  | reset
  | call (f : Call)
  | evt (kind : Byte) (tag : BitVec 2) (payload : Payload)
  deriving DecidableEq, Repr

/-- Why a code is no instruction. -/
inductive DecodeError where
  /-- A scalar value that is no key of the table: "not found", which ENC skips with a warning (R111 b, R156). -/
  | notInTable (c : Elem)
  /-- No Unicode scalar value (R62, R111 c). -/
  | notScalar
  /-- `MODE` code 3, never held (R23, R111 d). -/
  | reservedMode
  /-- A register number of 9 or more (R71, R112). -/
  | noSuchRegister (n : Nat)
  /-- A reserved event kind (R108). -/
  | reservedKind (b : Byte)
  /-- The record's tag is not its kind's (R108, R109; log 5). -/
  | wrongTag
  /-- The record's payload is not of its kind's form (R108; log 5). -/
  | wrongPayload
  /-- EMIT of a key that is not found, or SEG of a frequency or a duration that is not positive (R152, R198; log 5). -/
  | badOperand
  deriving DecidableEq, Repr

/-- What the decoder answers: an instruction, or a rejection by name. -/
inductive Decoded where
  | ok (i : Instr)
  | rejected (e : DecodeError)
  deriving DecidableEq, Repr

/-- The instruction if it is well formed, else the rejection. -/
def Instr.checked (i : Instr) (e : DecodeError) : Decoded :=
  if i.wellFormed then .ok i else .rejected e

/-! ## The decoder -/

/-- A text element selects the row of its character; ENC has folded it before (R131, R155). -/
def decodeElem (c : Elem) : Decoded :=
  match rowOf c with
  | some r => .ok r.instr
  | none => if isScalar c then .rejected (.notInTable c) else .rejected .notScalar

/-- A marker is selected by its mode (R158). -/
def decodeMarker (m : BitVec 2) : Decoded :=
  match m.toNat with
  | 0 => .ok .markLat
  | 1 => .ok .markFigs
  | 2 => .ok .markRus
  | _ => .rejected .reservedMode

/-- UNIT2: `0b00` = `U0`, `0b01` = `U1`, `0b10` = `UH`, `0b11` reserved (R96). -/
def decodeUnit (u : UnitCode) : Instr :=
  match u.toNat with
  | 0 => .u0
  | 1 => .u1
  | 2 => .uh
  | _ => .unitReserved

/-- CMD8: 0 does nothing, 1 START, 2 STOP, 3 to 255 reserved (R30, R112). -/
def decodeCmd (b : Byte) : Instr :=
  match b.toNat with
  | 0 => .nop
  | 1 => .start
  | 2 => .stop
  | _ => .cmdReserved b

/-- The inserted sequences (R101). -/
def decodePseudo : PseudoCode → Instr
  | .startSeq => .startSeq
  | .closeSeq => .closeSeq
  | .pre => .pre
  | .post => .post

/-- The functions: keys and characters are for scalar values (R15, R62); EMIT and SEG, which only the sequencer calls, have
their operands' domain checked too (log 5). -/
def decodeCall : Call → Decoded
  | .encode text verbose => (Instr.encode text verbose).checked .notScalar
  | .synthesize units c => .ok (.synthesize units c)
  | .grd => .ok .grd
  | .lookup k => (Instr.lookup k).checked .notScalar
  | .upper c => (Instr.upper c).checked .notScalar
  | .modeOf k => (Instr.modeOf k).checked .notScalar
  | .emit k => (Instr.emit k).checked .badOperand
  | .seg f d => (Instr.seg f d).checked .badOperand
  | .amp θ v => .ok (.amp θ v)

/-- The event row of a kind and a payload of that kind's form (R108). -/
def decodePayload : EvKind → Payload → Decoded
  | .text, .text t => (Instr.evText t).checked .notScalar
  | .encBegin, .none => .ok .evEncBegin
  | .char, .charCode c code => (Instr.evChar c code).checked .notScalar
  | .unsupported, .char c => (Instr.evUnsupported c).checked .notScalar
  | .encSummary, .count n => .ok (.evEncSummary n)
  | .emptyInput, .none => .ok .evEmptyInput
  | .invalidConfig, .config which value => .ok (.evInvalidConfig which value)
  | .playbackFinished, .none => .ok .evPlaybackFinished
  | .txComplete, .none => .ok .evTxComplete
  | .txStopped, .none => .ok .evTxStopped
  | .deviceFail, .none => .ok .evDeviceFail
  | .persistFail, .text cause => (Instr.evPersistFail cause).checked .notScalar
  | .saved, .text location => (Instr.evSaved location).checked .notScalar
  | _, _ => .rejected .wrongPayload

/-- EVT: a kind byte, its tag, its payload (R107 to R109). -/
def decodeEvt (kind : Byte) (tag : BitVec 2) (payload : Payload) : Decoded :=
  match evKindOf kind with
  | none => .rejected (.reservedKind kind)
  | some k => if tag = k.tag.code then decodePayload k payload else .rejected .wrongTag

/-- The decoder: total on every code, rejecting by name. -/
def decode : Code → Decoded
  | .elem c => decodeElem c
  | .marker m => decodeMarker m
  | .unit u => .ok (decodeUnit u)
  | .pseudo p => .ok (decodePseudo p)
  | .cmd b => .ok (decodeCmd b)
  | .regRd n => (Instr.regRd n).checked (.noSuchRegister n)
  | .regWr n v => (Instr.regWr n v).checked (.noSuchRegister n)
  | .txtWr text => (Instr.txtWr text).checked .notScalar
  | .reset => .ok .reset
  | .call f => decodeCall f
  | .evt kind tag payload => decodeEvt kind tag payload

/-! ## The encoder -/

/-- The code of an event record (R107). -/
def encodeEvt (k : EvKind) (payload : Payload) : Code := .evt k.code k.tag.code payload

/-- The encoder, written from the same tables: the character keys of R97 and R134, the unit codes of R96, the command
bytes of R30, the kinds and tags of R108. -/
def encode : Instr → Code
  | .latA => .elem 0x0041#21
  | .latB => .elem 0x0042#21
  | .latC => .elem 0x0043#21
  | .latD => .elem 0x0044#21
  | .latE => .elem 0x0045#21
  | .latF => .elem 0x0046#21
  | .latG => .elem 0x0047#21
  | .latH => .elem 0x0048#21
  | .latI => .elem 0x0049#21
  | .latJ => .elem 0x004A#21
  | .latK => .elem 0x004B#21
  | .latL => .elem 0x004C#21
  | .latM => .elem 0x004D#21
  | .latN => .elem 0x004E#21
  | .latO => .elem 0x004F#21
  | .latP => .elem 0x0050#21
  | .latQ => .elem 0x0051#21
  | .latR => .elem 0x0052#21
  | .latS => .elem 0x0053#21
  | .latT => .elem 0x0054#21
  | .latU => .elem 0x0055#21
  | .latV => .elem 0x0056#21
  | .latW => .elem 0x0057#21
  | .latX => .elem 0x0058#21
  | .latY => .elem 0x0059#21
  | .latZ => .elem 0x005A#21
  | .fig0 => .elem 0x0030#21
  | .fig1 => .elem 0x0031#21
  | .fig2 => .elem 0x0032#21
  | .fig3 => .elem 0x0033#21
  | .fig4 => .elem 0x0034#21
  | .fig5 => .elem 0x0035#21
  | .fig6 => .elem 0x0036#21
  | .fig7 => .elem 0x0037#21
  | .fig8 => .elem 0x0038#21
  | .fig9 => .elem 0x0039#21
  | .figMinus => .elem 0x002D#21
  | .figPlus => .elem 0x002B#21
  | .figQuestion => .elem 0x003F#21
  | .figColon => .elem 0x003A#21
  | .figLeft => .elem 0x0028#21
  | .figRight => .elem 0x0029#21
  | .figDot => .elem 0x002E#21
  | .figComma => .elem 0x002C#21
  | .figSlash => .elem 0x002F#21
  | .figSha => .elem 0x0428#21
  | .figShcha => .elem 0x0429#21
  | .figE => .elem 0x042D#21
  | .figYu => .elem 0x042E#21
  | .figChe => .elem 0x0427#21
  | .rusA => .elem 0x0410#21
  | .rusBe => .elem 0x0411#21
  | .rusVe => .elem 0x0412#21
  | .rusGhe => .elem 0x0413#21
  | .rusDe => .elem 0x0414#21
  | .rusIe => .elem 0x0415#21
  | .rusZhe => .elem 0x0416#21
  | .rusZe => .elem 0x0417#21
  | .rusI => .elem 0x0418#21
  | .rusShortI => .elem 0x0419#21
  | .rusKa => .elem 0x041A#21
  | .rusEl => .elem 0x041B#21
  | .rusEm => .elem 0x041C#21
  | .rusEn => .elem 0x041D#21
  | .rusO => .elem 0x041E#21
  | .rusPe => .elem 0x041F#21
  | .rusEr => .elem 0x0420#21
  | .rusEs => .elem 0x0421#21
  | .rusTe => .elem 0x0422#21
  | .rusU => .elem 0x0423#21
  | .rusEf => .elem 0x0424#21
  | .rusHa => .elem 0x0425#21
  | .rusTse => .elem 0x0426#21
  | .rusHard => .elem 0x042A#21
  | .rusYeru => .elem 0x042B#21
  | .rusSoft => .elem 0x042C#21
  | .rusYa => .elem 0x042F#21
  | .rusIo => .elem 0x0401#21
  | .sp => .elem 0x0020#21
  | .cr => .elem 0x000D#21
  | .lf => .elem 0x000A#21
  | .markLat => .marker Mode.lat.code
  | .markFigs => .marker Mode.figs.code
  | .markRus => .marker Mode.rus.code
  | .u0 => .unit 0b00#2
  | .u1 => .unit 0b01#2
  | .uh => .unit 0b10#2
  | .unitReserved => .unit 0b11#2
  | .startSeq => .pseudo .startSeq
  | .closeSeq => .pseudo .closeSeq
  | .pre => .pseudo .pre
  | .post => .pseudo .post
  | .nop => .cmd 0x00
  | .start => .cmd 0x01
  | .stop => .cmd 0x02
  | .cmdReserved v => .cmd v
  | .regRd n => .regRd n
  | .regWr n v => .regWr n v
  | .txtWr text => .txtWr text
  | .reset => .reset
  | .encode text verbose => .call (.encode text verbose)
  | .synthesize units c => .call (.synthesize units c)
  | .grd => .call .grd
  | .lookup k => .call (.lookup k)
  | .upper c => .call (.upper c)
  | .modeOf k => .call (.modeOf k)
  | .emit k => .call (.emit k)
  | .seg f d => .call (.seg f d)
  | .amp θ v => .call (.amp θ v)
  | .evText t => encodeEvt .text (.text t)
  | .evEncBegin => encodeEvt .encBegin .none
  | .evChar c code => encodeEvt .char (.charCode c code)
  | .evUnsupported c => encodeEvt .unsupported (.char c)
  | .evEncSummary n => encodeEvt .encSummary (.count n)
  | .evEmptyInput => encodeEvt .emptyInput .none
  | .evInvalidConfig which value => encodeEvt .invalidConfig (.config which value)
  | .evPlaybackFinished => encodeEvt .playbackFinished .none
  | .evTxComplete => encodeEvt .txComplete .none
  | .evTxStopped => encodeEvt .txStopped .none
  | .evDeviceFail => encodeEvt .deviceFail .none
  | .evPersistFail cause => encodeEvt .persistFail (.text cause)
  | .evSaved location => encodeEvt .saved (.text location)

/-! ## Words numbered as the opcode table numbers them -/

/-- The code the table's bits stand for when nothing but the bits is given: a byte written to `CMD`, the one place where
the CORE takes an instruction as a bare word (R30, R70; log 4). -/
def tableCode (w : Nat) : Code := .cmd (BitVec.ofNat 8 w)

/-- The instruction the decoder reads from a bare word of the table (log 4); none for a word longer than a byte. -/
def decodeTableWord (nbits w : Nat) : Option Instr :=
  if 8 < nbits ∨ 256 ≤ w then none
  else match decode (tableCode w) with
    | .ok i => some i
    | .rejected _ => none

end Sys2Proof
end

