-- ==== Sys2Proof/Machine/State.lean ====
section
/-! DEFINITION. The state of the machine: everything `10_state.md` gives the CORE, the host's own state
(`44_host_controller.md`), and three fields of the model's own (`ret`, `inbox`, `fresh`). Plain data. The state after
reset is `10_state.md` rule R42. -/

namespace Sys2Proof.Machine

/-! ## The sequencer's position (R22) -/

/-- `ESEQ`: where the encoder stands inside `ENCODING`, with the event, symbol or element it is at (R22; log 18). -/
inductive ESeq where
  | textEvents (k : Fin 2)
  | start (k : Fin 3)
  | body
  | close (k : Fin 2)
  | summary
  deriving DecidableEq, Repr, Inhabited

/-- `SSEQ`: where the synthesizer stands inside `SYNTHESIZING` (R22). -/
inductive SSeq where
  | check
  | pre
  | data
  | post
  | done
  deriving DecidableEq, Repr, Inhabited

/-- `STATE` with the position inside it: `ESEQ` exists inside `ENCODING` only, `SSEQ` inside `SYNTHESIZING` only
(R22; log 18). -/
inductive Phase where
  | idle
  | encoding (e : ESeq)
  | synthesizing (q : SSeq)
  deriving DecidableEq, Repr, Inhabited

/-- `RESULT`, the outcome of the last START (R31, R110). -/
inductive Result where
  | none
  | ok
  | emptyInput
  | invalidConfig
  deriving DecidableEq, Repr, Inhabited

/-! ## What the host is given and what it asks -/

/-- What the last access or call returned to the host (log 7). -/
inductive Ret where
  /-- Nothing has been returned yet. -/
  | none
  /-- REGRD: the register's number and its bits, as an unsigned number (R247). -/
  | reg (n : Nat) (bits : Nat)
  /-- LOOKUP: a code, or "not found" (R131). -/
  | code (c : Option Code5)
  /-- UPPER (R132). -/
  | char (c : Elem)
  /-- MODEOF: a class, or "not found" (R130, R133). -/
  | cls (c : Option SymClass)
  /-- AMP (R199). -/
  | sample (x : Sample)
  /-- GRD: whether the text is blank (R242). -/
  | blank (b : Bool)
  /-- The oldest sample, popped from `PCM`; none if it was empty (R70). -/
  | pcm (x : Option Sample)
  /-- The oldest event, popped from `EVT`; none if it was empty (R70). -/
  | event (e : Option Event)
  /-- The host tap on `BITS` (R70). -/
  | unit (u : Option UnitCode)
  deriving DecidableEq, Repr, Inhabited

/-- The settings the host hands to `transmit`, with the defaults the collaborator supplies (R271, R282). A volume has none
(N10). -/
structure Settings where
  /-- The baud rate, a positive real; the model holds a rational (log 42). -/
  baud : Rat := 4545 / 100
  /-- The mark frequency in Hz. -/
  markHz : BitVec 16 := 1170
  /-- The space frequency in Hz. -/
  spaceHz : BitVec 16 := 1000
  /-- The volume in percent. -/
  volPct : BitVec 8
  verbose : Bool
  /-- The save-to-file flag; it has no register (R276). -/
  save : Bool
  deriving DecidableEq, Repr, Inhabited

/-- The result of the worker's WAV write, marshalled back to the controller (R276, R279). -/
inductive WriteResult where
  | saved (location : List Elem)
  | failed (cause : List Elem)
  deriving DecidableEq, Repr, Inhabited

/-- What the host does that is no instruction of the table: its channel accesses (R70) and the moves of its Playback and
Persistence Controller (R270 to R280). -/
inductive HostAct where
  /-- Pop the oldest sample of `PCM` (R70). -/
  | popPcm
  /-- Pop the oldest event of `EVT` (R70). -/
  | popEvt
  /-- Read unit `k` of `BITS` without removing it (R70). -/
  | tapBits (k : Nat)
  /-- `transmit(text, config)`, up to the START (R271). -/
  | transmit (text : List Elem) (settings : Settings)
  /-- The rest of `transmit`, once the CORE is idle: acquire the device and begin playback; the argument says whether
  the device could be acquired (R271, R278). -/
  | settle (acquired : Bool)
  /-- The device plays `n` samples of its buffer (R273, R283). -/
  | play (n : Nat)
  /-- One poll of the playback position (R273, R274). -/
  | poll
  /-- The WAV write of the session ends (R276, R277, R279). -/
  | writeDone (r : WriteResult)
  /-- Write `k` among the WAV writes of stopped sessions ends, in any order (R280). -/
  | orphanDone (k : Nat) (r : WriteResult)
  /-- `stop()` (R275). -/
  | stop
  deriving DecidableEq, Repr

/-- One slot of the inbox says which agent moves next, and with what (R20; log 2). -/
inductive Slot where
  /-- The CORE sequencer moves once. -/
  | core
  /-- The host's request reaches the CORE. -/
  | request (c : Code)
  /-- The host acts by itself. -/
  | act (a : HostAct)
  deriving DecidableEq, Repr

/-! ## The host's side (R270 to R280) -/

/-- The owned audio device: the buffer written to it, the playback position, the save flag of its session
(R272, R273, R276, R283). -/
structure Playback where
  buffer : List Sample
  position : Nat
  save : Bool
  deriving DecidableEq, Repr, Inhabited

/-- The state of the Playback and Persistence Controller. -/
structure HostSide where
  /-- A `transmit` waits for the CORE (R271). -/
  tx : Bool
  /-- The save-to-file flag of that `transmit` (R276). -/
  save : Bool
  /-- The device, while a session owns it (R272). -/
  dev : Option Playback
  /-- The WAV image being written for the session that owns the device (R276). -/
  job : Option (List Byte)
  /-- WAV images still being written for sessions that were stopped, in the order of the stops (R280). -/
  orphans : List (List Byte)
  /-- The files written so far, oldest first (R79). -/
  files : List (List Byte)
  deriving DecidableEq, Repr, Inhabited

/-! ## The state -/

/-- The state of the CORE and of its host. -/
structure State where
  /-- `STATE`, `ESEQ`, `SSEQ` (R22). -/
  phase : Phase
  /-- `STATUS.RESULT` (R31). -/
  result : Result
  /-- `STATUS.VOL_CLAMPED` (R45). -/
  volClamped : Bool
  /-- `STATUS.UNSUP_SEEN` (R45). -/
  unsupSeen : Bool
  /-- `BAUD_CB`, register 2 (R25). -/
  baudCb : BitVec 32
  /-- `MARK_HZ`, register 3 (R26). -/
  markHz : BitVec 16
  /-- `SPACE_HZ`, register 4 (R27). -/
  spaceHz : BitVec 16
  /-- `VOL_PCT`, register 5 (R28). -/
  volPct : BitVec 8
  /-- `CTRL` bit 0, `VERBOSE`; bits 7:1 read 0 and take no write (R29). -/
  verbose : Bool
  /-- `TOTAL_UNITS`, register 7 (R32; log 20). -/
  totalUnits : Nat
  /-- `TOTAL_SAMPLES`, register 8 (R32; log 20). -/
  totalSamples : Nat
  /-- The latched configuration (R34). -/
  cfg : Latched
  /-- `MODE` (R23). -/
  mode : Mode
  /-- `THETA`, the phase accumulator, in turns (R24). -/
  theta : Rat
  /-- The encoder working registers (R35). -/
  enc : EncRegs
  /-- The synthesizer working registers (R36). -/
  syn : SynRegs
  /-- The `TXT` channel (R62). -/
  txt : List Elem
  /-- The `BITS` channel (R63). -/
  bits : List UnitCode
  /-- The `PCM` channel (R64). -/
  pcm : List Sample
  /-- The `EVT` channel (R65). -/
  evt : List Event
  /-- What the last access returned to the host (the model's own field; log 7). -/
  ret : Ret
  /-- Pending slots, oldest first (the model's own field; log 2). -/
  inbox : List Slot
  /-- How many free values have been drawn (the model's own field; log 16). -/
  fresh : Nat
  /-- The host's controller (R270). -/
  hostSide : HostSide
  deriving DecidableEq, Repr

/-- The state after reset (R42, R340). `VOL_PCT`, `VERBOSE`, the latched configuration and the working registers have no
value in the spec: zero is the model's DESIGN CHOICE (log 13, log 14). So is the host's side: idle, the save flag clear
(N10; log 27). -/
def State.reset : State where
  phase := .idle
  result := .none
  volClamped := false
  unsupSeen := false
  baudCb := 4545
  markHz := 1170
  spaceHz := 1000
  volPct := 0
  verbose := false
  totalUnits := 0
  totalSamples := 0
  cfg := { params := { baudCb := 0, markHz := 0, spaceHz := 0, volPct := 0 }, verbose := false }
  mode := .lat
  theta := 0
  enc := { txtPos := 0, cur := 0, unitCnt := 0 }
  syn := { v := 0, segF := 0, segN := 0, segI := 0, sampleCnt := 0, unitPos := 0 }
  txt := []
  bits := []
  pcm := []
  evt := []
  ret := .none
  inbox := []
  fresh := 0
  hostSide := { tx := false, save := false, dev := none, job := none, orphans := [], files := [] }

/-! ## Why the machine stops -/

/-- A stuck machine, in states no run reaches (log 21). -/
inductive Fault where
  /-- A segment at frequency 0: raised by `seg` when a segment is run before the check of R193 has passed. Safe: the
  spec gives the case no effect. -/
  | zeroFrequency
  /-- A segment with no positive duration: raised by `seg` when a segment is run before the check of R192 has passed.
  Safe: "reject non-positive baud rate rather than produce degenerate/infinite durations". -/
  | nonPositiveDuration
  deriving DecidableEq, Repr

/-- What the model gives no meaning. -/
inductive Refusal where
  /-- The instruction has no meaning yet (raised by `exec`). -/
  | notModelled (mnemonic : String)
  /-- The host's request is no instruction (raised by `step`; R62, R108, R112; log 5). Safe. -/
  | undecoded (e : DecodeError)
  /-- The host may not issue this instruction: it is the sequencer's (raised by `step`; R290, log 6). Safe. -/
  | notAHostRequest
  /-- Unit code `0b11` (raised by `UNIT_RESERVED` and by SYNTHESIZE on a list that holds it; R96). Safe. -/
  | reservedUnit
  /-- `CMD` value 3 to 255 (raised by `CMD_RESERVED` and by REGWR of register 0; R112). Safe. -/
  | reservedCommand (b : Byte)
  /-- Register number 9 or more (raised by REGRD and REGWR; R71, R112). Safe. -/
  | noSuchRegister (n : Nat)
  /-- A text element that is no scalar value (raised by TXTWR; R62). Safe. -/
  | notScalar
  /-- A text longer than `TEXT_MAX` (raised by TXTWR; R249, U6). Safe. -/
  | textTooLong
  /-- TXTWR while `STATE` is not `IDLE` (R249, R346). Safe. -/
  | textWriteWhileBusy
  /-- START while `STATE` is not `IDLE` (R244). Safe. -/
  | startWhileBusy
  /-- ENCODE or SYNTHESIZE run as a function while a session runs (raised by `exec`; log 22). Safe. -/
  | callWhileBusy
  /-- EMIT of a key that LOOKUP does not find (raised by EMIT, which only the sequencer runs; log 5). Safe. -/
  | emitNotFound
  /-- `transmit` while an earlier `transmit` has not returned (raised by the host's action; log 27). Safe. -/
  | transmitWhileTransmitting
  /-- A WAV file whose 32-bit size fields cannot hold its size (raised by the host's poll; U25, log 29). Safe. -/
  | wavTooLong
  deriving DecidableEq, Repr

/-- The outcome of a step of this machine. -/
abbrev Outcome := Host.Outcome State Fault Refusal

end Sys2Proof.Machine
end

