-- ==== Sys2Proof/Machine/Operands.lean ====
section
/-! DEFINITION. The operand forms: text elements and keys (`40_symbol_table.md` rules R131 to R133, `43_commands.md` rule
R243), the values of the configuration registers (`30_encoding.md` rule R102), durations and sample counts
(`42_fsk_synthesizer.md` rules R195, R196). -/

namespace Sys2Proof.Machine

/-- `UPPER(c)` (R132). -/
def upper (c : Elem) : Elem :=
  if 0x61 ≤ c.toNat ∧ c.toNat ≤ 0x7A then c - 0x20#21
  else if 0x430 ≤ c.toNat ∧ c.toNat ≤ 0x44F then c - 0x20#21
  else if c.toNat = 0x451 then 0x401#21
  else c

/-- `IS_WS(c)`: U+0009 to U+000D and U+0020 (R243). -/
def isWs (c : Elem) : Bool := (0x9 ≤ c.toNat && c.toNat ≤ 0xD) || c.toNat == 0x20

/-- `BLANK(text)`, true for the empty text (R242). -/
def blank (text : List Elem) : Bool := text.all isWs

/-- `LOOKUP(key)`: the code of a key of the table, else "not found" (R131). -/
def lookup (p : Impl) (k : Key) : Option Code5 := if k.present then some (p.code k) else none

/-- The class of a row: CR and LF have the class `MODE_CTRL` (R133). -/
def classOfRow (p : Impl) : RowClass → SymClass
  | .needs m => .mode m
  | .neutral => .neutral
  | .ctrl => p.modeCtrl

/-- `MODEOF(key)`; a marker has no class, nor has a key that is not found (R130, R133). -/
def classOf (p : Impl) : Key → Option SymClass
  | .char c => (rowOf c).map fun r => classOfRow p r.cls
  | .marker _ => none

/-- The carriage return and the line feed, U+000D and U+000A (R97). -/
def crKey : Key := .char 0x000D#21

@[inherit_doc crKey] def lfKey : Key := .char 0x000A#21

/-- `BAUD_CB` as a signed number of centibaud (R25, R102). -/
def baudOf (c : SynParams) : Int := c.baudCb.toInt

/-- `VOL_PCT` as a signed percent (R28). -/
def volumeOf (c : SynParams) : Int := c.volPct.toInt

/-- `V = clamp(VOL_PCT / 100, 0, 1)` (R102, R194). -/
def volumeFraction (c : SynParams) : Rat := clamp ((volumeOf c : Rat) / 100) 0 1

/-- `d1 = 100 / BAUD_CB` seconds, the full unit (R195). -/
def fullUnit (c : SynParams) : Rat := 100 / (baudOf c : Rat)

/-- `dh = 50 / BAUD_CB` seconds, the half unit (R195). -/
def halfUnit (c : SynParams) : Rat := 50 / (baudOf c : Rat)

/-- `N(d) = ROUND(44100 × d)` (R196). -/
def sampleCount (p : Impl) (d : Rat) : Nat := roundTie p.tie (Config.sampleRate * d)

/-- The tone of a unit: `U0` space, `U1` and `UH` mark (R93, R206). -/
def unitFrequency (c : SynParams) (u : UnitCode) : BitVec 16 := if u = 0b00#2 then c.spaceHz else c.markHz

/-- The duration of a unit: `UH` half, the others full (R93, R195). -/
def unitDuration (c : SynParams) (u : UnitCode) : Rat := if u = 0b10#2 then halfUnit c else fullUnit c

end Sys2Proof.Machine
end

