-- ==== Sys2Proof/Machine/Flags.lean ====
section
/-! DEFINITION. The flags: the `STATUS` word and its fields (`10_state.md` rules R31, R45), what START clears
(R43, `43_commands.md` rule R241). -/

namespace Sys2Proof.Machine

/-- `STATE`: 0 `IDLE`, 1 `ENCODING`, 2 `SYNTHESIZING` (R31). -/
def Phase.code : Phase → BitVec 2
  | .idle => 0
  | .encoding _ => 1
  | .synthesizing _ => 2

/-- `RESULT`: 0 `NONE`, 1 `OK`, 2 `EMPTY_INPUT`, 3 `INVALID_CONFIG` (R31, R110). -/
def Result.code : Result → BitVec 3
  | .none => 0
  | .ok => 1
  | .emptyInput => 2
  | .invalidConfig => 3

/-- `STATUS`: bits 1:0 `STATE`, bits 4:2 `RESULT`, bit 5 `VOL_CLAMPED`, bit 6 `UNSUP_SEEN`, bit 7 reads 0 (R31). -/
def statusWord (s : State) : BitVec 8 :=
  BitVec.ofBool false ++ BitVec.ofBool s.unsupSeen ++ BitVec.ofBool s.volClamped ++ s.result.code ++ s.phase.code

/-- `CTRL`: bit 0 `VERBOSE`, bits 7:1 read 0 (R29). -/
def ctrlWord (s : State) : BitVec 8 := 0#7 ++ BitVec.ofBool s.verbose

/-- What START sets to 0: `RESULT`, the two flags, the two totals (R241, R43). -/
def clearOutcome (s : State) : State :=
  { s with result := .none, volClamped := false, unsupSeen := false, totalUnits := 0, totalSamples := 0 }

/-- The configuration registers copied into the session registers (R34). -/
def latch (s : State) : State :=
  { s with
    cfg := { params := { baudCb := s.baudCb, markHz := s.markHz, spaceHz := s.spaceHz, volPct := s.volPct },
             verbose := s.verbose } }

end Sys2Proof.Machine
end

