-- ==== Sys2Proof/Machine/Ops.lean ====
section
/-! DEFINITION. The named operations over channels and registers: the primitives of `00_scope.md` rule R16, EMIT and the
character step of `41_baudot_encoder.md`, SEG and the checks of `42_fsk_synthesizer.md`, register access of
`43_commands.md`, and taking an error (`60_exceptions.md` rule R308), the one shared operation `raise`. Each takes the
OPEN parameters as its first argument where it depends on them. -/

namespace Sys2Proof.Machine

/-- Go on with `f` if the machine went on. -/
def onNext (o : Outcome) (f : State → Outcome) : Outcome :=
  match o with
  | .next s => f s
  | .fault r => .fault r
  | .refused r => .refused r

/-- Change the state if the machine went on. -/
def mapNext (o : Outcome) (f : State → State) : Outcome := onNext o fun s => .next (f s)

/-! ## Channels (R16, R70) -/

/-- `emit(kind, tag, payload)` with the tag its kind carries (R16, R108). -/
def pushEvent (k : EvKind) (payload : Payload) (s : State) : State :=
  { s with evt := s.evt ++ [{ kind := k, tag := k.tag, payload := payload }] }

/-- Return a value to the host. -/
def answer (r : Ret) (s : State) : State := { s with ret := r }

/-- A free value has been drawn: the next one is another (log 16). -/
def draw (s : State) : State := { s with fresh := s.fresh + 1 }

/-! ## Taking an error (R300, R308)

A fatal kind appends its event, writes `RESULT` and sets `STATE` to `IDLE`. A non-fatal kind appends its event, sets its
flag and the operation goes on. The two host kinds append their event and change nothing of the CORE (R304). There is no
saved address, no vector and no return instruction: after a fatal kind the host corrects the cause and writes START
again, and after a non-fatal kind the operation has already gone on (R309). -/

/-- The error kinds, the configuration kind by what it is about (R300). -/
inductive ErrorKind where
  | emptyInput
  | unsupportedCharacter (c : Elem)
  | invalidBaud (value : Int)
  | invalidMark
  | invalidSpace
  | invalidVolume (value : Int)
  | deviceAcquisitionFailure
  | persistenceFailure (cause : List Elem)
  deriving DecidableEq, Repr

/-- The error-kind code (R110, R300). -/
def ErrorKind.code : ErrorKind → Nat
  | .emptyInput => 1
  | .unsupportedCharacter _ => 2
  | .deviceAcquisitionFailure => 3
  | .persistenceFailure _ => 4
  | .invalidBaud _ | .invalidMark | .invalidSpace | .invalidVolume _ => 5

/-- The kind is fatal to the session: of the configuration kinds all but the volume (R110). -/
def ErrorKind.fatal : ErrorKind → Bool
  | .emptyInput | .deviceAcquisitionFailure | .invalidBaud _ | .invalidMark | .invalidSpace => true
  | .unsupportedCharacter _ | .persistenceFailure _ | .invalidVolume _ => false

/-- The event an error kind is recorded by (R300). -/
def errorKindOf : ErrorKind → EvKind
  | .emptyInput => .emptyInput
  | .unsupportedCharacter _ => .unsupported
  | .invalidBaud _ | .invalidMark | .invalidSpace | .invalidVolume _ => .invalidConfig
  | .deviceAcquisitionFailure => .deviceFail
  | .persistenceFailure _ => .persistFail

/-- The payload of that event (R300). -/
def errorPayload : ErrorKind → Payload
  | .emptyInput => .none
  | .unsupportedCharacter c => .char c
  | .invalidBaud value => .config .baud value
  | .invalidMark => .config .mark 0
  | .invalidSpace => .config .space 0
  | .invalidVolume value => .config .volume value
  | .deviceAcquisitionFailure => .none
  | .persistenceFailure cause => .text cause

/-- What an error kind changes beside its event: a fatal kind `RESULT` and `STATE`, a non-fatal kind its flag
(R300, R308). -/
def errorEffect : ErrorKind → State → State
  | .emptyInput, s => { s with result := .emptyInput, phase := .idle }
  | .unsupportedCharacter _, s => { s with unsupSeen := true }
  | .invalidBaud _, s => { s with result := .invalidConfig, phase := .idle }
  | .invalidMark, s => { s with result := .invalidConfig, phase := .idle }
  | .invalidSpace, s => { s with result := .invalidConfig, phase := .idle }
  | .invalidVolume _, s => { s with volClamped := true }
  | .deviceAcquisitionFailure, s => s
  | .persistenceFailure _, s => s

/-- Taking an error (R308). -/
def raise (e : ErrorKind) (s : State) : State := errorEffect e (pushEvent (errorKindOf e) (errorPayload e) s)

/-! ## The encoder (R150 to R172) -/

/-- EMIT: the eight units of the key's frame, in order, and `UNIT_CNT + 8` (R152). -/
def emitKey (p : Impl) (k : Key) (s : State) : State :=
  { s with bits := s.bits ++ frame (p.code k), enc := { s.enc with unitCnt := s.enc.unitCnt + 8 } }

/-- A marker: its frame, and `MODE` becomes the mode it names (R158). -/
def emitMarker (p : Impl) (m : Mode) (s : State) : State := { emitKey p (.marker m) s with mode := m }

/-- The mode test: a neutral character skips it, a character of another mode has the marker put before it
(R157, R158, R159). -/
def enterClass (p : Impl) (cls : SymClass) (s : State) : State :=
  match cls with
  | .neutral => s
  | .mode m => if m = s.mode then s else emitMarker p m s

/-- The verbose event of an encoded character (R163). -/
def verboseEvent (p : Impl) (verbose : Bool) (c : Elem) (s : State) : State :=
  if verbose then pushEvent .char (.charCode c (p.code (.char c))) s else s

/-- One supported character of a class: the mode test, the verbose event, the character's frame (R151, R157 to R159,
R172). -/
def encodeSymbol (p : Impl) (c : Elem) (cls : SymClass) (verbose : Bool) (s : State) : State :=
  emitKey p (.char c) (verboseEvent p verbose c (enterClass p cls s))

/-- Reading a text element: `CUR <- UPPER(text[p])` (R155). -/
def readElem (c : Elem) (s : State) : State := { s with enc := { s.enc with cur := upper c } }

/-- The next text element. -/
def advanceText (s : State) : State := { s with enc := { s.enc with txtPos := s.enc.txtPos + 1 } }

/-- One turn of the character loop on the element `c`: skipped with a warning if it is not found, else encoded by its
class (R151, R155, R156). -/
def encodeElem (p : Impl) (verbose : Bool) (c : Elem) (s : State) : State :=
  match rowOf (upper c) with
  | none => raise (.unsupportedCharacter (upper c)) (readElem c s)
  | some r => encodeSymbol p r.elem (classOfRow p r.cls) verbose (readElem c s)

/-- The character loop (R151, R155). -/
def encodeBody (p : Impl) (verbose : Bool) : List Elem → State → State
  | [], s => s
  | c :: cs, s => encodeBody p verbose cs (advanceText (encodeElem p verbose c s))

/-- STARTSEQ: `LAT`, CR, LF, with no class test (R154). -/
def startSequence (p : Impl) (s : State) : State :=
  emitKey p lfKey (emitKey p crKey (emitKey p (.marker .lat) s))

/-- CLOSESEQ: CR, LF, with no class test and no marker (R161). -/
def closeSequence (p : Impl) (s : State) : State := emitKey p lfKey (emitKey p crKey s)

/-- The text event (R162). -/
def textEvent (text : List Elem) (s : State) : State := pushEvent .text (.text text) s

/-- The beginning notice, `MODE <- LAT`, `TXT_POS <- 0`, `UNIT_CNT <- 0` (R162, R153, R43). -/
def encodeBegin (s : State) : State :=
  { pushEvent .encBegin .none s with mode := .lat, enc := { s.enc with txtPos := 0, unitCnt := 0 } }

/-- The entry of ENCODE (R151). -/
def encodeEnter (text : List Elem) (s : State) : State := encodeBegin (textEvent text s)

/-- The end of ENCODE: `TOTAL_UNITS <- UNIT_CNT` and the summary (R164). That the register is written here, so that a host
reads 0 before and the count from here on, is the model's choice (R351; log 40). The encoder working registers are not
defined from here on (R35; log 17). -/
def encodeFinish (s : State) : State :=
  let t := pushEvent .encSummary (.count s.enc.unitCnt) { s with totalUnits := s.enc.unitCnt }
  { t with enc := Config.freeEnc s.fresh, fresh := s.fresh + 1 }

/-- ENCODE in full (R151). It appends to `BITS` and leaves `UNSUP_SEEN` set if it was: only START empties and clears them
(R241), so ENCODE run on its own adds to what stood there (log 38). -/
def encodeText (p : Impl) (text : List Elem) (verbose : Bool) (s : State) : State :=
  encodeFinish (closeSequence p (encodeBody p verbose text (startSequence p (encodeEnter text s))))

/-! ## The synthesizer (R190 to R221) -/

/-- The samples of a segment: sample `i` has phase `frac(THETA + f × i / 44100)` (R198, R200). -/
def segmentSamples (p : Impl) (θ : Rat) (f : BitVec 16) (n : Nat) (v : Rat) : List Sample :=
  (List.range n).map fun (i : Nat) => amp p (frac (θ + f.toNat * i / Config.sampleRate)) v

/-- SEG on a positive frequency and a positive duration: the samples, then `THETA <- frac(THETA + f × d)` by the nominal
duration (R198, R201). `SEG_I` is written once per sample, so a segment of no samples leaves it. -/
def runSegment (p : Impl) (f : BitVec 16) (d : Rat) (s : State) : State :=
  let n := sampleCount p d
  { s with
    pcm := s.pcm ++ segmentSamples p s.theta f n s.syn.v
    theta := frac (s.theta + f.toNat * d)
    syn := { s.syn with
      segF := f, segN := n, segI := if n = 0 then s.syn.segI else n - 1, sampleCnt := s.syn.sampleCnt + n } }

/-- SEG: its operands are a positive frequency and a positive duration (R198); the model is stuck on others (log 21). -/
def seg (p : Impl) (f : BitVec 16) (d : Rat) (s : State) : Outcome :=
  if f = 0 then .fault .zeroFrequency
  else if d ≤ 0 then .fault .nonPositiveDuration
  else .next (runSegment p f d s)

/-- The segment of one unit (R191, R207, R208, R209); the reserved code is refused (R96). -/
def unitSegment (p : Impl) (c : SynParams) (u : UnitCode) (s : State) : Outcome :=
  if u = 0b11#2 then .refused .reservedUnit else seg p (unitFrequency c u) (unitDuration c u) s

/-- The next unit. -/
def advanceUnit (s : State) : State := { s with syn := { s.syn with unitPos := s.syn.unitPos + 1 } }

/-- The segments of the units, in order (R191). -/
def unitSegments (p : Impl) (c : SynParams) : List UnitCode → State → Outcome
  | [], s => .next s
  | u :: us, s => onNext (mapNext (unitSegment p c u s) advanceUnit) (unitSegments p c us)

/-- PRE and POST: the mark tone for 3/10 s (R197, R203). -/
def markTone (p : Impl) (c : SynParams) (s : State) : Outcome := seg p c.markHz Config.preDuration s

/-- The first fatal condition of the configuration, in the order baud, mark, space (R191, R307). -/
def fatalConfig (c : SynParams) : Option ErrorKind :=
  if baudOf c ≤ 0 then some (.invalidBaud (baudOf c))
  else if c.markHz = 0 then some .invalidMark
  else if c.spaceHz = 0 then some .invalidSpace
  else none

/-- The volume outside 0 to 100 is reported and clamped, and synthesis goes on (R194). `VOL_CLAMPED` is set, never cleared:
only START clears it (R241), so after SYNTHESIZE run on its own it may stand from before (log 38). -/
def checkVolume (c : SynParams) (s : State) : State :=
  if volumeOf c < 0 ∨ 100 < volumeOf c then raise (.invalidVolume (volumeOf c)) s else s

/-- The rest of `S_CHECK`: the volume, `V`, `THETA <- 0`, `SAMPLE_CNT <- 0` (R191, R43). -/
def synthesizeEnter (c : SynParams) (s : State) : State :=
  let s := checkVolume c s
  { s with theta := 0, syn := { s.syn with v := volumeFraction c, sampleCnt := 0, unitPos := 0 } }

/-- `S_DONE`: `TOTAL_SAMPLES <- SAMPLE_CNT`, `RESULT <- OK` (R191, R204). The synthesizer working registers are not
defined from here on (R36; log 17). -/
def synthesizeFinish (s : State) : State :=
  { s with totalSamples := s.syn.sampleCnt, result := .ok, syn := Config.freeSyn s.fresh, fresh := s.fresh + 1 }

/-- SYNTHESIZE in full (R191). It appends to `PCM`. A fatal configuration writes neither `TOTAL_SAMPLES` nor `PCM`, as the
pseudocode has it; that they are then 0 and empty (R191, R308) presupposes START's clearing (R241), and SYNTHESIZE run
on its own leaves what stood there (log 38). -/
def synthesizeUnits (p : Impl) (units : List UnitCode) (c : SynParams) (s : State) : Outcome :=
  match fatalConfig c with
  | some e => .next (raise e s)
  | none =>
    mapNext (onNext (onNext (markTone p c (synthesizeEnter c s)) (unitSegments p c units)) (markTone p c))
      synthesizeFinish

/-! ## The guard, the registers, the text (R241 to R249) -/

/-- GRD: a blank text raises `EmptyInput` (R242). -/
def guardText (s : State) : State := if blank s.txt then raise .emptyInput s else s

/-- The state in which START has emptied the outcome and the two channels and latched the configuration (R241). -/
def openSession (s : State) : State := { latch (clearOutcome s) with bits := [], pcm := [] }

/-- The bits of register `n`; none for a number that does not exist (R33, R247). `CMD` reads 0. What the flags and totals
read as while a session runs is the model's choice (R351; log 40). -/
def readRegister (n : Nat) (s : State) : Option Nat :=
  match n with
  | 0 => some 0
  | 1 => some (statusWord s).toNat
  | 2 => some s.baudCb.toNat
  | 3 => some s.markHz.toNat
  | 4 => some s.spaceHz.toNat
  | 5 => some s.volPct.toNat
  | 6 => some (ctrlWord s).toNat
  | 7 => some s.totalUnits
  | 8 => some s.totalSamples
  | _ => none

/-- A write of a register other than `CMD`: truncated to the register's width, ignored by the read-only registers
(R247, R29, R31). -/
def writeConfig (n : Nat) (v : BitVec 64) (s : State) : State :=
  match n with
  | 2 => { s with baudCb := v.setWidth 32 }
  | 3 => { s with markHz := v.setWidth 16 }
  | 4 => { s with spaceHz := v.setWidth 16 }
  | 5 => { s with volPct := v.setWidth 8 }
  | 6 => { s with verbose := v.getLsbD 0 }
  | _ => s

/-- RESET of the CORE: the state of R42; the values it leaves unspecified are free; what is the host's own stays
(R248, R340; log 15, log 37). -/
def resetCore (s : State) : State :=
  { State.reset with
    volPct := Config.freeVolume s.fresh
    verbose := Config.freeVerbose s.fresh
    cfg := Config.freeLatched s.fresh
    enc := Config.freeEnc s.fresh
    syn := Config.freeSyn s.fresh
    ret := s.ret
    inbox := s.inbox
    fresh := s.fresh + 1
    hostSide := s.hostSide }

end Sys2Proof.Machine
end

