-- ==== Sys2Proof/Machine/Wav.lean ====
section
/-! DEFINITION. The host's WAV sink: the byte image of a sample buffer and its reading back (`20_memory.md` rules R79,
R80; the widths of the fields other than the two sizes are the spec's general knowledge, G4). -/

namespace Sys2Proof.Machine

/-- `n` bytes of a number, the least significant first (R67, R79). -/
def littleEndian : Nat → Nat → List Byte
  | 0, _ => []
  | n + 1, x => BitVec.ofNat 8 x :: littleEndian n (x / 256)

/-- The number `bytes` stand for, the least significant first. -/
def fromLittleEndian : List Byte → Nat
  | [] => 0
  | b :: bs => b.toNat + 256 * fromLittleEndian bs

/-- The two bytes of a sample, the low one first (R80). -/
def sampleBytes (x : Sample) : List Byte := littleEndian 2 x.toNat

/-- `RIFF`, `WAVE`, `fmt ` with its trailing space, `data` (R79). -/
def wavTags : List Byte × List Byte × List Byte × List Byte :=
  ([0x52, 0x49, 0x46, 0x46], [0x57, 0x41, 0x56, 0x45], [0x66, 0x6D, 0x74, 0x20], [0x64, 0x61, 0x74, 0x61])

/-- The 44 bytes before the samples, for `n` samples (R79). -/
def wavHeader (n : Nat) : List Byte :=
  wavTags.1 ++ littleEndian 4 (2 * n + 36) ++ wavTags.2.1 ++
  wavTags.2.2.1 ++ littleEndian 4 16 ++ littleEndian 2 1 ++ littleEndian 2 1 ++ littleEndian 4 44100 ++
  littleEndian 4 88200 ++ littleEndian 2 2 ++ littleEndian 2 16 ++
  wavTags.2.2.2 ++ littleEndian 4 (2 * n)

/-- The bytes of the samples, in order. -/
def samplesBytes : List Sample → List Byte
  | [] => []
  | x :: xs => sampleBytes x ++ samplesBytes xs

/-- The WAV image of a buffer (R79). -/
def wavImage (buffer : List Sample) : List Byte := wavHeader buffer.length ++ samplesBytes buffer

/-- The 32-bit size fields hold the image's sizes (R80). -/
def wavFits (buffer : List Sample) : Bool := 2 * buffer.length + 36 < 2 ^ 32

/-- The samples read back from the data bytes; none if a byte is left over. -/
def readSamples : List Byte → Option (List Sample)
  | [] => some []
  | [_] => none
  | lo :: hi :: rest => (readSamples rest).map fun xs => (hi ++ lo) :: xs

/-- What a reader of the file recovers: sample rate, channel count, bit depth, samples (R80). -/
structure WavContent where
  sampleRate : Nat
  channels : Nat
  bitDepth : Nat
  samples : List Sample
  deriving DecidableEq, Repr

/-- Reading a WAV file back (R80). -/
def wavParse (bytes : List Byte) : Option WavContent :=
  if bytes.take 4 = wavTags.1 ∧ (bytes.drop 8).take 4 = wavTags.2.1 ∧ (bytes.drop 12).take 4 = wavTags.2.2.1 ∧
      (bytes.drop 36).take 4 = wavTags.2.2.2 then
    (readSamples ((bytes.drop 44).take (fromLittleEndian ((bytes.drop 40).take 4)))).map fun xs =>
      { sampleRate := fromLittleEndian ((bytes.drop 24).take 4)
        channels := fromLittleEndian ((bytes.drop 22).take 2)
        bitDepth := fromLittleEndian ((bytes.drop 34).take 2)
        samples := xs }
  else none

end Sys2Proof.Machine
end

