-- ==== Sys2Proof/Machine/HostControl.lean ====
section
/-! DEFINITION. What the host does by itself: its accesses to the channels (`20_memory.md` rule R70) and its Playback and
Persistence Controller (`44_host_controller.md` rules R270 to R280), the host the CORE lives in (`00_scope.md` rule R7).
Nothing of the CORE depends on it (R290). -/

namespace Sys2Proof.Machine

/-- Change the host's side. -/
def onHost (f : HostSide → HostSide) (s : State) : State := { s with hostSide := f s.hostSide }

/-- The states of the controller (R270). -/
inductive ControllerState where
  | idle
  | encoding
  | synthesizing
  | playing
  | saving
  | stopped
  deriving DecidableEq, Repr

/-- The host's own part of the controller's state: saving, playing, or neither (R270). -/
def hostState (h : HostSide) : ControllerState :=
  if h.job.isSome then .saving else if h.dev.isSome then .playing else .idle

/-- The controller's state between two moves: while a `transmit` waits `Encoding` and `Synthesizing` coincide with the
CORE's `STATE`; the rest is the host's (R270). Once the CORE is back in `IDLE` and before the `settle` that acquires the
device, the rule's sentence gives `Idle` and its table `Synthesizing`: the model follows the sentence (log 43). While
the CORE runs a session that no waiting `transmit` began, a bare START of the host, the model gives the host's part
alone (log 45). -/
def controllerState (s : State) : ControllerState :=
  match s.hostSide.tx, s.phase with
  | true, .encoding _ => .encoding
  | true, .synthesizing _ => .synthesizing
  | _, _ => hostState s.hostSide

/-- The states the controller goes through in a host's move from `s` to `t`: a `stop()` while it plays goes through
`Stopped` (R270, R275). -/
def controllerPath (a : HostAct) (s t : State) : List ControllerState :=
  if a = .stop ∧ controllerState s = .playing then [.stopped, controllerState t] else [controllerState t]

/-- A register write as the host's bus puts it, the value zero-extended (R247). -/
def busWrite (n : Nat) {w : Nat} (v : BitVec w) : Slot := .request (.regWr n (v.setWidth 64))

/-- The host's conversion of a baud rate to centibaud: exact for a whole number of hundredths that fits the register,
else rounded as the host sees fit (R282, R25; log 42). -/
def centibaud (q : HostImpl) (baud : Rat) : BitVec 32 :=
  let cb := 100 * baud
  if cb.den = 1 ∧ -2 ^ 31 ≤ cb.num ∧ cb.num < 2 ^ 31 then BitVec.ofInt 32 cb.num else q.roundBaud baud

/-- `transmit` in the CORE's terms: write the configuration registers, write the text, write START (R240). -/
def transmitRequests (q : HostImpl) (text : List Elem) (st : Settings) : List Slot :=
  [busWrite 2 (centibaud q st.baud), busWrite 3 st.markHz, busWrite 4 st.spaceHz, busWrite 5 st.volPct,
   busWrite 6 (BitVec.ofBool st.verbose), .request (.txtWr text), .request (.cmd 0x01)]

/-- The host pops the oldest sample (R70). -/
def popSample (s : State) : State := answer (.pcm s.pcm.head?) { s with pcm := s.pcm.tail }

/-- The host pops the oldest event (R70). -/
def popEventRecord (s : State) : State := answer (.event s.evt.head?) { s with evt := s.evt.tail }

/-- A session is there to be stopped: a `transmit` waits, a device is owned, or a write is in flight (R275). That a
`transmit` waits until its `settle`, also when the CORE has rejected it, and that a `stop()` before then finds a session,
is the model's choice (log 44). -/
def sessionActive (h : HostSide) : Bool := h.tx || h.dev.isSome || h.job.isSome

/-- Halting and releasing the device of the session that owns it, and ending that session: a write in flight goes on or
is dropped by `SAVE_AFTER_STOP` (R272, R275, R280). -/
def releaseDevice (q : HostImpl) (h : HostSide) : HostSide :=
  { h with
    dev := none
    job := none
    orphans := if q.saveCompletes then h.orphans ++ h.job.toList else h.orphans }

/-- `stop()`: halts and releases the device, one "transmission stopped" event, the session destroyed; idempotent when
idle (R275, N26). The CORE runs on (R246). While a new `transmit` waits and the prior session still plays, the rule does
not say which of the two it stops: the model ends both, with one event (log 39). -/
def stopTransmission (q : HostImpl) (s : State) : State :=
  if sessionActive s.hostSide then
    onHost (fun h => { releaseDevice q h with tx := false }) (pushEvent .txStopped .none s)
  else if q.idleStopEvent then pushEvent .txStopped .none s
  else s

/-- Releasing the prior session's device before a new acquisition (R272); whether its "transmission stopped" is emitted
is not stated (N24). -/
def releasePrior (q : HostImpl) (s : State) : State :=
  if s.hostSide.dev.isSome then
    onHost (releaseDevice q) (if q.priorStopEvent then pushEvent .txStopped .none s else s)
  else s

/-- The rest of `transmit`, once the CORE is `IDLE`: on `OK` the prior session's device is released, the device is
acquired and the buffer is moved out of `PCM` to it, or its acquisition fails; on another result the controller returns
to `Idle` (R270, R271, R272, R278; log 28). While the CORE still runs, nothing happens. -/
def settleTransmission (q : HostImpl) (acquired : Bool) (s : State) : State :=
  if s.hostSide.tx = true ∧ s.phase = .idle then
    if s.result = .ok then
      let r := onHost (fun h => { h with tx := false }) (releasePrior q s)
      if acquired then
        onHost (fun h => { h with dev := some { buffer := s.pcm, position := 0, save := h.save } }) { r with pcm := [] }
      else raise .deviceAcquisitionFailure r
    else onHost (fun h => { h with tx := false }) s
  else s

/-- The device plays `n` samples (R273, R283). -/
def playSamples (n : Nat) (s : State) : State :=
  onHost (fun h => { h with dev := h.dev.map fun d => { d with position := d.position + n } }) s

/-- One poll: when the position has reached the buffer's length, "playback finished"; then either the WAV write starts,
or "transmission complete" follows, the device is released and the session destroyed (R273, R274). A file too long for
its size fields is refused (U25). While a write is in flight the polling is over. -/
def pollPlayback (s : State) : Outcome :=
  match s.hostSide.dev, s.hostSide.job with
  | some d, none =>
    if d.position < d.buffer.length then .next s
    else if d.save then
      if wavFits d.buffer then
        .next (onHost (fun h => { h with job := some (wavImage d.buffer) }) (pushEvent .playbackFinished .none s))
      else .refused .wavTooLong
    else
      .next (onHost (fun h => { h with dev := none })
        (pushEvent .txComplete .none (pushEvent .playbackFinished .none s)))
  | _, _ => .next s

/-- The result of a write: the file and its location, or the cause (R276, R279). -/
def reportWrite (r : WriteResult) (s : State) : State :=
  match r with
  | .saved location => pushEvent .saved (.text location) s
  | .failed cause => raise (.persistenceFailure cause) s

/-- The file a write leaves, if it succeeded. -/
def keepFile (r : WriteResult) (image : List Byte) (h : HostSide) : HostSide :=
  match r with
  | .saved _ => { h with files := h.files ++ [image] }
  | .failed _ => h

/-- The session's write ends: its result, then "transmission complete", then release and destruction (R274, R277,
R279). -/
def finishWrite (r : WriteResult) (s : State) : State :=
  match s.hostSide.job with
  | none => s
  | some image =>
    onHost (fun h => { keepFile r image h with dev := none, job := none })
      (pushEvent .txComplete .none (reportWrite r s))

/-- Write `k` of the stopped sessions ends: the file may be there and its result may be reported, but no "transmission
complete" follows; the writes end in any order (R280). -/
def finishOrphan (q : HostImpl) (k : Nat) (r : WriteResult) (s : State) : State :=
  match s.hostSide.orphans[k]? with
  | none => s
  | some image =>
    onHost (fun h => { keepFile r image h with orphans := h.orphans.eraseIdx k })
      (if q.reportAfterStop then reportWrite r s else s)

/-- The host's action. -/
def hostMove (a : HostAct) (s : State) : Outcome :=
  match a with
  | .popPcm => .next (popSample s)
  | .popEvt => .next (popEventRecord s)
  | .tapBits k => .next (answer (.unit s.bits[k]?) s)
  | .transmit text settings =>
    if s.hostSide.tx then .refused .transmitWhileTransmitting
    else .next (onHost (fun h => { h with tx := true, save := settings.save })
      { s with inbox := transmitRequests Config.hostImpl text settings ++ s.inbox })
  | .settle acquired => .next (settleTransmission Config.hostImpl acquired s)
  | .play n => .next (playSamples n s)
  | .poll => pollPlayback s
  | .writeDone r => .next (finishWrite r s)
  | .orphanDone k r => .next (finishOrphan Config.hostImpl k r s)
  | .stop => .next (stopTransmission Config.hostImpl s)

end Sys2Proof.Machine
end

