-- ==== Sys2Proof/Machine/Commands.lean ====
section
/-! DEFINITION. The meanings of the CMD8 rows: what a write of a byte to `CMD` does (`10_state.md` rule R30,
`43_commands.md` rules R241 to R246). -/

namespace Sys2Proof.Machine

/-- START up to the entry of the encoder: refused while busy (R244); else the outcome, `BITS` and `PCM` are emptied and
the configuration latched, and a blank text ends the session at once with `EmptyInput` (R241, R242). The rest of the
session is the sequencer's moves (log 1). -/
def startCommand (s : State) : Outcome :=
  if s.phase ≠ .idle then .refused .startWhileBusy
  else if blank s.txt then .next (guardText (openSession s))
  else .next { openSession s with phase := .encoding (.textEvents 0) }

/-- NOP: "Writing 0 does nothing" (R30). -/
def execNop (s : State) : Outcome := .next s

/-- START (R241). -/
def execStart (s : State) : Outcome := startCommand s

/-- STOP: "no CORE state changes, in any `STATE`" (R246). -/
def execStop (s : State) : Outcome := .next s

/-- `CMD` values 3 to 255: "The model refuses a write of one" (R112). -/
def execCmdReserved (v : Byte) (_ : State) : Outcome := .refused (.reservedCommand v)

/-- What a write of the byte `b` to register 0 does (R30, R247). -/
def writeCommand (b : Byte) (s : State) : Outcome :=
  match b.toNat with
  | 0 => .next s
  | 1 => startCommand s
  | 2 => .next s
  | _ => .refused (.reservedCommand b)

end Sys2Proof.Machine
end

