-- ==== Sys2Proof/Machine/Access.lean ====
section
/-! DEFINITION. The meanings of the ACCESS rows: register access, the text, the reset input (`43_commands.md` rules R247,
R249, R248). -/

namespace Sys2Proof.Machine

/-- REGRD(n): the register's value, no side effect; n above 8 is refused (R247, R112). -/
def execRegRd (n : Nat) (s : State) : Outcome :=
  match readRegister n s with
  | some bits => .next (answer (.reg n bits) s)
  | none => .refused (.noSuchRegister n)

/-- REGWR(n, v): register 0 takes the command, 2 to 6 take the value truncated to their width, 1, 7 and 8 ignore it, n
above 8 is refused; allowed in every `STATE` (R247, R348). -/
def execRegWr (n : Nat) (v : BitVec 64) (s : State) : Outcome :=
  if n = 0 then writeCommand (v.setWidth 8) s
  else if n ≤ 8 then .next (writeConfig n v s)
  else .refused (.noSuchRegister n)

/-- TXTWR: replaces the text; refused while `STATE` is not `IDLE`, for an element that is no scalar value, and for a list
longer than `TEXT_MAX` (R249, R62, R346). -/
def execTxtWr (text : List Elem) (s : State) : Outcome :=
  if s.phase ≠ .idle then .refused .textWriteWhileBusy
  else if text.all isScalar = false then .refused .notScalar
  else if Config.impl.textLimit < text.length then .refused .textTooLong
  else .next { s with txt := text }

/-- RESET, the hardware reset input (R248). -/
def execReset (s : State) : Outcome := .next (resetCore s)

end Sys2Proof.Machine
end

