-- ==== Sys2Proof/Machine/Events.lean ====
section
/-! DEFINITION. The meanings of the EVT rows: each appends its record to `EVT`, with the tag of its kind
(`30_encoding.md` rules R107, R108; log 23). The CORE emits kinds 0x01 to 0x07, the host 0x10 to 0x15, at any time
(`44_host_controller.md` rule R290). -/

namespace Sys2Proof.Machine

/-- `EV_TEXT` (R162). -/
def execEvText (text : List Elem) (s : State) : Outcome := .next (pushEvent .text (.text text) s)

/-- `EV_ENC_BEGIN` (R162). -/
def execEvEncBegin (s : State) : Outcome := .next (pushEvent .encBegin .none s)

/-- `EV_CHAR` (R163). -/
def execEvChar (c : Elem) (code : Code5) (s : State) : Outcome := .next (pushEvent .char (.charCode c code) s)

/-- `EV_UNSUPPORTED` (R156). -/
def execEvUnsupported (c : Elem) (s : State) : Outcome := .next (pushEvent .unsupported (.char c) s)

/-- `EV_ENC_SUMMARY` (R164). -/
def execEvEncSummary (n : Nat) (s : State) : Outcome := .next (pushEvent .encSummary (.count n) s)

/-- `EV_EMPTY_INPUT` (R242). -/
def execEvEmptyInput (s : State) : Outcome := .next (pushEvent .emptyInput .none s)

/-- `EV_INVALID_CONFIG` (R303). -/
def execEvInvalidConfig (which : ConfigItem) (value : Int) (s : State) : Outcome :=
  .next (pushEvent .invalidConfig (.config which value) s)

/-- `EV_PLAYBACK_FINISHED` (R274). -/
def execEvPlaybackFinished (s : State) : Outcome := .next (pushEvent .playbackFinished .none s)

/-- `EV_TX_COMPLETE` (R274). -/
def execEvTxComplete (s : State) : Outcome := .next (pushEvent .txComplete .none s)

/-- `EV_TX_STOPPED` (R275). -/
def execEvTxStopped (s : State) : Outcome := .next (pushEvent .txStopped .none s)

/-- `EV_DEVICE_FAIL` (R278). -/
def execEvDeviceFail (s : State) : Outcome := .next (pushEvent .deviceFail .none s)

/-- `EV_PERSIST_FAIL` (R279). -/
def execEvPersistFail (cause : List Elem) (s : State) : Outcome := .next (pushEvent .persistFail (.text cause) s)

/-- `EV_SAVED` (R276). -/
def execEvSaved (location : List Elem) (s : State) : Outcome := .next (pushEvent .saved (.text location) s)

end Sys2Proof.Machine
end

