-- ==== Sys2Proof/Machine/Functions.lean ====
section
/-! DEFINITION. The meanings of the FUNC rows: the public operations ENCODE (`41_baudot_encoder.md` rule R150) and
SYNTHESIZE (`42_fsk_synthesizer.md` rule R190) as the functions of their operands that a model also exposes, and the named
functions. A value a function returns goes to `ret` (log 7). -/

namespace Sys2Proof.Machine

/-- ENCODE as a function of its operands; it has no blank test (R150). Refused while a session runs (log 22). -/
def execEncode (text : List Elem) (verbose : Bool) (s : State) : Outcome :=
  if s.phase ≠ .idle then .refused .callWhileBusy else .next (encodeText Config.impl text verbose s)

/-- SYNTHESIZE as a function of its operands: any list of units, the empty one too (R190, R221); a list that holds `0b11`
is refused (R96). Refused while a session runs (log 22). -/
def execSynthesize (units : List UnitCode) (c : SynParams) (s : State) : Outcome :=
  if s.phase ≠ .idle then .refused .callWhileBusy else synthesizeUnits Config.impl units c s

/-- GRD: the blank-input guard on `TXT` (R242). -/
def execGrd (s : State) : Outcome := .next (answer (.blank (blank s.txt)) (guardText s))

/-- LOOKUP (R131). -/
def execLookup (k : Key) (s : State) : Outcome := .next (answer (.code (lookup Config.impl k)) s)

/-- UPPER (R132). -/
def execUpper (c : Elem) (s : State) : Outcome := .next (answer (.char (upper c)) s)

/-- MODEOF: the class of a character key, `NotFound` if LOOKUP does not find it (R130, R133). The rule gives a marker no
class and the answer for one is free (log 24). -/
def execModeOf (k : Key) (s : State) : Outcome :=
  match k with
  | .char _ => .next (answer (.cls (classOf Config.impl k)) s)
  | .marker _ => .next (answer (.cls (Config.freeClass s.fresh)) (draw s))

/-- EMIT of a key that LOOKUP finds (R152); another key has no frame and is refused. -/
def execEmit (k : Key) (s : State) : Outcome :=
  if k.present then .next (emitKey Config.impl k s) else .refused .emitNotFound

/-- SEG (R198). -/
def execSeg (f : BitVec 16) (d : Rat) (s : State) : Outcome := seg Config.impl f d s

/-- AMP of a `Turn` and a fraction (R199); the rule states no sample for other operands and theirs is free (log 41). -/
def execAmp (θ v : Rat) (s : State) : Outcome :=
  if 0 ≤ θ ∧ θ < 1 ∧ 0 ≤ v ∧ v ≤ 1 then .next (answer (.sample (amp Config.impl θ v)) s)
  else .next (answer (.sample (Config.freeSample s.fresh)) (draw s))

end Sys2Proof.Machine
end

