-- ==== Sys2Proof/Machine/Pseudo.lean ====
section
/-! DEFINITION. The meanings of the PSEUDO rows: the four sequences the sequencer inserts (`30_encoding.md` rule R101). -/

namespace Sys2Proof.Machine

/-- STARTSEQ: `LAT,CR,LF` (R154). -/
def execStartSeq (s : State) : Outcome := .next (startSequence Config.impl s)

/-- CLOSESEQ: `CR,LF` (R161). -/
def execCloseSeq (s : State) : Outcome := .next (closeSequence Config.impl s)

/-- PRE: the mark tone for 300 ms (R197). -/
def execPre (s : State) : Outcome := markTone Config.impl s.cfg.params s

/-- POST: the mark tone for 300 ms, from whatever phase the last unit left (R203). -/
def execPost (s : State) : Outcome := markTone Config.impl s.cfg.params s

end Sys2Proof.Machine
end

