-- ==== Sys2Proof/Machine/Symbols.lean ====
section
/-! DEFINITION. The meanings of the 84 FRAME8 rows: the character step of ENC for a character of each class
(`41_baudot_encoder.md` rules R157 to R159, R172) and the mode markers (R158). The scalar values are those of
`30_encoding.md` rule R97, the classes those of `40_symbol_table.md` rule R133. -/

namespace Sys2Proof.Machine

/-- `A`, class `LAT` (R158, R159). -/
def execLatA (s : State) : Outcome :=
  .next (encodeSymbol Config.impl 0x0041#21 (.mode .lat) s.cfg.verbose s)

/-- `B`, class `LAT` (R158, R159). -/
def execLatB (s : State) : Outcome :=
  .next (encodeSymbol Config.impl 0x0042#21 (.mode .lat) s.cfg.verbose s)

/-- `C`, class `LAT` (R158, R159). -/
def execLatC (s : State) : Outcome :=
  .next (encodeSymbol Config.impl 0x0043#21 (.mode .lat) s.cfg.verbose s)

/-- `D`, class `LAT` (R158, R159). -/
def execLatD (s : State) : Outcome :=
  .next (encodeSymbol Config.impl 0x0044#21 (.mode .lat) s.cfg.verbose s)

/-- `E`, class `LAT` (R158, R159). -/
def execLatE (s : State) : Outcome :=
  .next (encodeSymbol Config.impl 0x0045#21 (.mode .lat) s.cfg.verbose s)

/-- `F`, class `LAT` (R158, R159). -/
def execLatF (s : State) : Outcome :=
  .next (encodeSymbol Config.impl 0x0046#21 (.mode .lat) s.cfg.verbose s)

/-- `G`, class `LAT` (R158, R159). -/
def execLatG (s : State) : Outcome :=
  .next (encodeSymbol Config.impl 0x0047#21 (.mode .lat) s.cfg.verbose s)

/-- `H`, class `LAT` (R158, R159). -/
def execLatH (s : State) : Outcome :=
  .next (encodeSymbol Config.impl 0x0048#21 (.mode .lat) s.cfg.verbose s)

/-- `I`, class `LAT` (R158, R159). -/
def execLatI (s : State) : Outcome :=
  .next (encodeSymbol Config.impl 0x0049#21 (.mode .lat) s.cfg.verbose s)

/-- `J`, class `LAT` (R158, R159). -/
def execLatJ (s : State) : Outcome :=
  .next (encodeSymbol Config.impl 0x004A#21 (.mode .lat) s.cfg.verbose s)

/-- `K`, class `LAT` (R158, R159). -/
def execLatK (s : State) : Outcome :=
  .next (encodeSymbol Config.impl 0x004B#21 (.mode .lat) s.cfg.verbose s)

/-- `L`, class `LAT` (R158, R159). -/
def execLatL (s : State) : Outcome :=
  .next (encodeSymbol Config.impl 0x004C#21 (.mode .lat) s.cfg.verbose s)

/-- `M`, class `LAT` (R158, R159). -/
def execLatM (s : State) : Outcome :=
  .next (encodeSymbol Config.impl 0x004D#21 (.mode .lat) s.cfg.verbose s)

/-- `N`, class `LAT` (R158, R159). -/
def execLatN (s : State) : Outcome :=
  .next (encodeSymbol Config.impl 0x004E#21 (.mode .lat) s.cfg.verbose s)

/-- `O`, class `LAT` (R158, R159). -/
def execLatO (s : State) : Outcome :=
  .next (encodeSymbol Config.impl 0x004F#21 (.mode .lat) s.cfg.verbose s)

/-- `P`, class `LAT` (R158, R159). -/
def execLatP (s : State) : Outcome :=
  .next (encodeSymbol Config.impl 0x0050#21 (.mode .lat) s.cfg.verbose s)

/-- `Q`, class `LAT` (R158, R159). -/
def execLatQ (s : State) : Outcome :=
  .next (encodeSymbol Config.impl 0x0051#21 (.mode .lat) s.cfg.verbose s)

/-- `R`, class `LAT` (R158, R159). -/
def execLatR (s : State) : Outcome :=
  .next (encodeSymbol Config.impl 0x0052#21 (.mode .lat) s.cfg.verbose s)

/-- `S`, class `LAT` (R158, R159). -/
def execLatS (s : State) : Outcome :=
  .next (encodeSymbol Config.impl 0x0053#21 (.mode .lat) s.cfg.verbose s)

/-- `T`, class `LAT` (R158, R159). -/
def execLatT (s : State) : Outcome :=
  .next (encodeSymbol Config.impl 0x0054#21 (.mode .lat) s.cfg.verbose s)

/-- `U`, class `LAT` (R158, R159). -/
def execLatU (s : State) : Outcome :=
  .next (encodeSymbol Config.impl 0x0055#21 (.mode .lat) s.cfg.verbose s)

/-- `V`, class `LAT` (R158, R159). -/
def execLatV (s : State) : Outcome :=
  .next (encodeSymbol Config.impl 0x0056#21 (.mode .lat) s.cfg.verbose s)

/-- `W`, class `LAT` (R158, R159). -/
def execLatW (s : State) : Outcome :=
  .next (encodeSymbol Config.impl 0x0057#21 (.mode .lat) s.cfg.verbose s)

/-- `X`, class `LAT` (R158, R159). -/
def execLatX (s : State) : Outcome :=
  .next (encodeSymbol Config.impl 0x0058#21 (.mode .lat) s.cfg.verbose s)

/-- `Y`, class `LAT` (R158, R159). -/
def execLatY (s : State) : Outcome :=
  .next (encodeSymbol Config.impl 0x0059#21 (.mode .lat) s.cfg.verbose s)

/-- `Z`, class `LAT` (R158, R159). -/
def execLatZ (s : State) : Outcome :=
  .next (encodeSymbol Config.impl 0x005A#21 (.mode .lat) s.cfg.verbose s)

/-- `0`, class `FIGS` (R158, R159). -/
def execFig0 (s : State) : Outcome :=
  .next (encodeSymbol Config.impl 0x0030#21 (.mode .figs) s.cfg.verbose s)

/-- `1`, class `FIGS` (R158, R159). -/
def execFig1 (s : State) : Outcome :=
  .next (encodeSymbol Config.impl 0x0031#21 (.mode .figs) s.cfg.verbose s)

/-- `2`, class `FIGS` (R158, R159). -/
def execFig2 (s : State) : Outcome :=
  .next (encodeSymbol Config.impl 0x0032#21 (.mode .figs) s.cfg.verbose s)

/-- `3`, class `FIGS` (R158, R159). -/
def execFig3 (s : State) : Outcome :=
  .next (encodeSymbol Config.impl 0x0033#21 (.mode .figs) s.cfg.verbose s)

/-- `4`, class `FIGS` (R158, R159). -/
def execFig4 (s : State) : Outcome :=
  .next (encodeSymbol Config.impl 0x0034#21 (.mode .figs) s.cfg.verbose s)

/-- `5`, class `FIGS` (R158, R159). -/
def execFig5 (s : State) : Outcome :=
  .next (encodeSymbol Config.impl 0x0035#21 (.mode .figs) s.cfg.verbose s)

/-- `6`, class `FIGS` (R158, R159). -/
def execFig6 (s : State) : Outcome :=
  .next (encodeSymbol Config.impl 0x0036#21 (.mode .figs) s.cfg.verbose s)

/-- `7`, class `FIGS` (R158, R159). -/
def execFig7 (s : State) : Outcome :=
  .next (encodeSymbol Config.impl 0x0037#21 (.mode .figs) s.cfg.verbose s)

/-- `8`, class `FIGS` (R158, R159). -/
def execFig8 (s : State) : Outcome :=
  .next (encodeSymbol Config.impl 0x0038#21 (.mode .figs) s.cfg.verbose s)

/-- `9`, class `FIGS` (R158, R159). -/
def execFig9 (s : State) : Outcome :=
  .next (encodeSymbol Config.impl 0x0039#21 (.mode .figs) s.cfg.verbose s)

/-- `-`, class `FIGS` (R158, R159). -/
def execFigMinus (s : State) : Outcome :=
  .next (encodeSymbol Config.impl 0x002D#21 (.mode .figs) s.cfg.verbose s)

/-- `+`, class `FIGS` (R158, R159). -/
def execFigPlus (s : State) : Outcome :=
  .next (encodeSymbol Config.impl 0x002B#21 (.mode .figs) s.cfg.verbose s)

/-- `?`, class `FIGS` (R158, R159). -/
def execFigQuestion (s : State) : Outcome :=
  .next (encodeSymbol Config.impl 0x003F#21 (.mode .figs) s.cfg.verbose s)

/-- `:`, class `FIGS` (R158, R159). -/
def execFigColon (s : State) : Outcome :=
  .next (encodeSymbol Config.impl 0x003A#21 (.mode .figs) s.cfg.verbose s)

/-- `(`, class `FIGS` (R158, R159). -/
def execFigLeft (s : State) : Outcome :=
  .next (encodeSymbol Config.impl 0x0028#21 (.mode .figs) s.cfg.verbose s)

/-- `)`, class `FIGS` (R158, R159). -/
def execFigRight (s : State) : Outcome :=
  .next (encodeSymbol Config.impl 0x0029#21 (.mode .figs) s.cfg.verbose s)

/-- `.`, class `FIGS` (R158, R159). -/
def execFigDot (s : State) : Outcome :=
  .next (encodeSymbol Config.impl 0x002E#21 (.mode .figs) s.cfg.verbose s)

/-- `,`, class `FIGS` (R158, R159). -/
def execFigComma (s : State) : Outcome :=
  .next (encodeSymbol Config.impl 0x002C#21 (.mode .figs) s.cfg.verbose s)

/-- `/`, class `FIGS` (R158, R159). -/
def execFigSlash (s : State) : Outcome :=
  .next (encodeSymbol Config.impl 0x002F#21 (.mode .figs) s.cfg.verbose s)

/-- `Ш`, class `FIGS` (R158, R159). -/
def execFigSha (s : State) : Outcome :=
  .next (encodeSymbol Config.impl 0x0428#21 (.mode .figs) s.cfg.verbose s)

/-- `Щ`, class `FIGS` (R158, R159). -/
def execFigShcha (s : State) : Outcome :=
  .next (encodeSymbol Config.impl 0x0429#21 (.mode .figs) s.cfg.verbose s)

/-- `Э`, class `FIGS` (R158, R159). -/
def execFigE (s : State) : Outcome :=
  .next (encodeSymbol Config.impl 0x042D#21 (.mode .figs) s.cfg.verbose s)

/-- `Ю`, class `FIGS` (R158, R159). -/
def execFigYu (s : State) : Outcome :=
  .next (encodeSymbol Config.impl 0x042E#21 (.mode .figs) s.cfg.verbose s)

/-- `Ч`, class `FIGS` (R158, R159). -/
def execFigChe (s : State) : Outcome :=
  .next (encodeSymbol Config.impl 0x0427#21 (.mode .figs) s.cfg.verbose s)

/-- `А`, class `RUS` (R158, R159). -/
def execRusA (s : State) : Outcome :=
  .next (encodeSymbol Config.impl 0x0410#21 (.mode .rus) s.cfg.verbose s)

/-- `Б`, class `RUS` (R158, R159). -/
def execRusBe (s : State) : Outcome :=
  .next (encodeSymbol Config.impl 0x0411#21 (.mode .rus) s.cfg.verbose s)

/-- `В`, class `RUS` (R158, R159). -/
def execRusVe (s : State) : Outcome :=
  .next (encodeSymbol Config.impl 0x0412#21 (.mode .rus) s.cfg.verbose s)

/-- `Г`, class `RUS` (R158, R159). -/
def execRusGhe (s : State) : Outcome :=
  .next (encodeSymbol Config.impl 0x0413#21 (.mode .rus) s.cfg.verbose s)

/-- `Д`, class `RUS` (R158, R159). -/
def execRusDe (s : State) : Outcome :=
  .next (encodeSymbol Config.impl 0x0414#21 (.mode .rus) s.cfg.verbose s)

/-- `Е`, class `RUS` (R158, R159). -/
def execRusIe (s : State) : Outcome :=
  .next (encodeSymbol Config.impl 0x0415#21 (.mode .rus) s.cfg.verbose s)

/-- `Ж`, class `RUS` (R158, R159). -/
def execRusZhe (s : State) : Outcome :=
  .next (encodeSymbol Config.impl 0x0416#21 (.mode .rus) s.cfg.verbose s)

/-- `З`, class `RUS` (R158, R159). -/
def execRusZe (s : State) : Outcome :=
  .next (encodeSymbol Config.impl 0x0417#21 (.mode .rus) s.cfg.verbose s)

/-- `И`, class `RUS` (R158, R159). -/
def execRusI (s : State) : Outcome :=
  .next (encodeSymbol Config.impl 0x0418#21 (.mode .rus) s.cfg.verbose s)

/-- `Й`, class `RUS` (R158, R159). -/
def execRusShortI (s : State) : Outcome :=
  .next (encodeSymbol Config.impl 0x0419#21 (.mode .rus) s.cfg.verbose s)

/-- `К`, class `RUS` (R158, R159). -/
def execRusKa (s : State) : Outcome :=
  .next (encodeSymbol Config.impl 0x041A#21 (.mode .rus) s.cfg.verbose s)

/-- `Л`, class `RUS` (R158, R159). -/
def execRusEl (s : State) : Outcome :=
  .next (encodeSymbol Config.impl 0x041B#21 (.mode .rus) s.cfg.verbose s)

/-- `М`, class `RUS` (R158, R159). -/
def execRusEm (s : State) : Outcome :=
  .next (encodeSymbol Config.impl 0x041C#21 (.mode .rus) s.cfg.verbose s)

/-- `Н`, class `RUS` (R158, R159). -/
def execRusEn (s : State) : Outcome :=
  .next (encodeSymbol Config.impl 0x041D#21 (.mode .rus) s.cfg.verbose s)

/-- `О`, class `RUS` (R158, R159). -/
def execRusO (s : State) : Outcome :=
  .next (encodeSymbol Config.impl 0x041E#21 (.mode .rus) s.cfg.verbose s)

/-- `П`, class `RUS` (R158, R159). -/
def execRusPe (s : State) : Outcome :=
  .next (encodeSymbol Config.impl 0x041F#21 (.mode .rus) s.cfg.verbose s)

/-- `Р`, class `RUS` (R158, R159). -/
def execRusEr (s : State) : Outcome :=
  .next (encodeSymbol Config.impl 0x0420#21 (.mode .rus) s.cfg.verbose s)

/-- `С`, class `RUS` (R158, R159). -/
def execRusEs (s : State) : Outcome :=
  .next (encodeSymbol Config.impl 0x0421#21 (.mode .rus) s.cfg.verbose s)

/-- `Т`, class `RUS` (R158, R159). -/
def execRusTe (s : State) : Outcome :=
  .next (encodeSymbol Config.impl 0x0422#21 (.mode .rus) s.cfg.verbose s)

/-- `У`, class `RUS` (R158, R159). -/
def execRusU (s : State) : Outcome :=
  .next (encodeSymbol Config.impl 0x0423#21 (.mode .rus) s.cfg.verbose s)

/-- `Ф`, class `RUS` (R158, R159). -/
def execRusEf (s : State) : Outcome :=
  .next (encodeSymbol Config.impl 0x0424#21 (.mode .rus) s.cfg.verbose s)

/-- `Х`, class `RUS` (R158, R159). -/
def execRusHa (s : State) : Outcome :=
  .next (encodeSymbol Config.impl 0x0425#21 (.mode .rus) s.cfg.verbose s)

/-- `Ц`, class `RUS` (R158, R159). -/
def execRusTse (s : State) : Outcome :=
  .next (encodeSymbol Config.impl 0x0426#21 (.mode .rus) s.cfg.verbose s)

/-- `Ъ`, class `RUS` (R158, R159). -/
def execRusHard (s : State) : Outcome :=
  .next (encodeSymbol Config.impl 0x042A#21 (.mode .rus) s.cfg.verbose s)

/-- `Ы`, class `RUS` (R158, R159). -/
def execRusYeru (s : State) : Outcome :=
  .next (encodeSymbol Config.impl 0x042B#21 (.mode .rus) s.cfg.verbose s)

/-- `Ь`, class `RUS` (R158, R159). -/
def execRusSoft (s : State) : Outcome :=
  .next (encodeSymbol Config.impl 0x042C#21 (.mode .rus) s.cfg.verbose s)

/-- `Я`, class `RUS` (R158, R159). -/
def execRusYa (s : State) : Outcome :=
  .next (encodeSymbol Config.impl 0x042F#21 (.mode .rus) s.cfg.verbose s)

/-- `Ё`, class `RUS` (R158, R159). -/
def execRusIo (s : State) : Outcome :=
  .next (encodeSymbol Config.impl 0x0401#21 (.mode .rus) s.cfg.verbose s)

/-- `SP`, class `NEUTRAL` (R157). -/
def execSp (s : State) : Outcome :=
  .next (encodeSymbol Config.impl 0x0020#21 .neutral s.cfg.verbose s)

/-- `CR`, class `MODE_CTRL` (R172). -/
def execCr (s : State) : Outcome :=
  .next (encodeSymbol Config.impl 0x000D#21 Config.impl.modeCtrl s.cfg.verbose s)

/-- `LF`, class `MODE_CTRL` (R172). -/
def execLf (s : State) : Outcome :=
  .next (encodeSymbol Config.impl 0x000A#21 Config.impl.modeCtrl s.cfg.verbose s)

/-- The marker `LAT` (R158). -/
def execMarkLat (s : State) : Outcome := .next (emitMarker Config.impl .lat s)

/-- The marker `FIGS` (R158). -/
def execMarkFigs (s : State) : Outcome := .next (emitMarker Config.impl .figs s)

/-- The marker `RUS` (R158). -/
def execMarkRus (s : State) : Outcome := .next (emitMarker Config.impl .rus s)

end Sys2Proof.Machine
end

