-- ==== Sys2Proof/Machine/Units.lean ====
section
/-! DEFINITION. The meanings of the UNIT2 rows: one segment each (`42_fsk_synthesizer.md` rules R207, R208, R209), with
the latched configuration; the reserved code is refused (`30_encoding.md` rule R96). -/

namespace Sys2Proof.Machine

/-- `U0`: the space frequency for a full unit (R207). -/
def execU0 (s : State) : Outcome := seg Config.impl s.cfg.params.spaceHz (fullUnit s.cfg.params) s

/-- `U1`: the mark frequency for a full unit (R208). -/
def execU1 (s : State) : Outcome := seg Config.impl s.cfg.params.markHz (fullUnit s.cfg.params) s

/-- `UH`: the mark frequency for a half unit (R209). -/
def execUh (s : State) : Outcome := seg Config.impl s.cfg.params.markHz (halfUnit s.cfg.params) s

/-- `0b11`: "the code has no meaning" (R96, R111 a). -/
def execUnitReserved (_ : State) : Outcome := .refused .reservedUnit

end Sys2Proof.Machine
end

