-- ==== Sys2Proof/Machine/Dispatch.lean ====
section
/-! DEFINITION. The dispatch: one arm per constructor of `Instr`, one direct call of its meaning each. -/

namespace Sys2Proof.Machine

def exec (i : Instr) (s : State) : Host.Outcome State Fault Refusal :=
  match i with
  -- FRAME8
  | .latA => Sys2Proof.Machine.execLatA s
  | .latB => Sys2Proof.Machine.execLatB s
  | .latC => Sys2Proof.Machine.execLatC s
  | .latD => Sys2Proof.Machine.execLatD s
  | .latE => Sys2Proof.Machine.execLatE s
  | .latF => Sys2Proof.Machine.execLatF s
  | .latG => Sys2Proof.Machine.execLatG s
  | .latH => Sys2Proof.Machine.execLatH s
  | .latI => Sys2Proof.Machine.execLatI s
  | .latJ => Sys2Proof.Machine.execLatJ s
  | .latK => Sys2Proof.Machine.execLatK s
  | .latL => Sys2Proof.Machine.execLatL s
  | .latM => Sys2Proof.Machine.execLatM s
  | .latN => Sys2Proof.Machine.execLatN s
  | .latO => Sys2Proof.Machine.execLatO s
  | .latP => Sys2Proof.Machine.execLatP s
  | .latQ => Sys2Proof.Machine.execLatQ s
  | .latR => Sys2Proof.Machine.execLatR s
  | .latS => Sys2Proof.Machine.execLatS s
  | .latT => Sys2Proof.Machine.execLatT s
  | .latU => Sys2Proof.Machine.execLatU s
  | .latV => Sys2Proof.Machine.execLatV s
  | .latW => Sys2Proof.Machine.execLatW s
  | .latX => Sys2Proof.Machine.execLatX s
  | .latY => Sys2Proof.Machine.execLatY s
  | .latZ => Sys2Proof.Machine.execLatZ s
  | .fig0 => Sys2Proof.Machine.execFig0 s
  | .fig1 => Sys2Proof.Machine.execFig1 s
  | .fig2 => Sys2Proof.Machine.execFig2 s
  | .fig3 => Sys2Proof.Machine.execFig3 s
  | .fig4 => Sys2Proof.Machine.execFig4 s
  | .fig5 => Sys2Proof.Machine.execFig5 s
  | .fig6 => Sys2Proof.Machine.execFig6 s
  | .fig7 => Sys2Proof.Machine.execFig7 s
  | .fig8 => Sys2Proof.Machine.execFig8 s
  | .fig9 => Sys2Proof.Machine.execFig9 s
  | .figMinus => Sys2Proof.Machine.execFigMinus s
  | .figPlus => Sys2Proof.Machine.execFigPlus s
  | .figQuestion => Sys2Proof.Machine.execFigQuestion s
  | .figColon => Sys2Proof.Machine.execFigColon s
  | .figLeft => Sys2Proof.Machine.execFigLeft s
  | .figRight => Sys2Proof.Machine.execFigRight s
  | .figDot => Sys2Proof.Machine.execFigDot s
  | .figComma => Sys2Proof.Machine.execFigComma s
  | .figSlash => Sys2Proof.Machine.execFigSlash s
  | .figSha => Sys2Proof.Machine.execFigSha s
  | .figShcha => Sys2Proof.Machine.execFigShcha s
  | .figE => Sys2Proof.Machine.execFigE s
  | .figYu => Sys2Proof.Machine.execFigYu s
  | .figChe => Sys2Proof.Machine.execFigChe s
  | .rusA => Sys2Proof.Machine.execRusA s
  | .rusBe => Sys2Proof.Machine.execRusBe s
  | .rusVe => Sys2Proof.Machine.execRusVe s
  | .rusGhe => Sys2Proof.Machine.execRusGhe s
  | .rusDe => Sys2Proof.Machine.execRusDe s
  | .rusIe => Sys2Proof.Machine.execRusIe s
  | .rusZhe => Sys2Proof.Machine.execRusZhe s
  | .rusZe => Sys2Proof.Machine.execRusZe s
  | .rusI => Sys2Proof.Machine.execRusI s
  | .rusShortI => Sys2Proof.Machine.execRusShortI s
  | .rusKa => Sys2Proof.Machine.execRusKa s
  | .rusEl => Sys2Proof.Machine.execRusEl s
  | .rusEm => Sys2Proof.Machine.execRusEm s
  | .rusEn => Sys2Proof.Machine.execRusEn s
  | .rusO => Sys2Proof.Machine.execRusO s
  | .rusPe => Sys2Proof.Machine.execRusPe s
  | .rusEr => Sys2Proof.Machine.execRusEr s
  | .rusEs => Sys2Proof.Machine.execRusEs s
  | .rusTe => Sys2Proof.Machine.execRusTe s
  | .rusU => Sys2Proof.Machine.execRusU s
  | .rusEf => Sys2Proof.Machine.execRusEf s
  | .rusHa => Sys2Proof.Machine.execRusHa s
  | .rusTse => Sys2Proof.Machine.execRusTse s
  | .rusHard => Sys2Proof.Machine.execRusHard s
  | .rusYeru => Sys2Proof.Machine.execRusYeru s
  | .rusSoft => Sys2Proof.Machine.execRusSoft s
  | .rusYa => Sys2Proof.Machine.execRusYa s
  | .rusIo => Sys2Proof.Machine.execRusIo s
  | .sp => Sys2Proof.Machine.execSp s
  | .cr => Sys2Proof.Machine.execCr s
  | .lf => Sys2Proof.Machine.execLf s
  | .markLat => Sys2Proof.Machine.execMarkLat s
  | .markFigs => Sys2Proof.Machine.execMarkFigs s
  | .markRus => Sys2Proof.Machine.execMarkRus s
  -- UNIT2
  | .u0 => Sys2Proof.Machine.execU0 s
  | .u1 => Sys2Proof.Machine.execU1 s
  | .uh => Sys2Proof.Machine.execUh s
  | .unitReserved => Sys2Proof.Machine.execUnitReserved s
  -- PSEUDO
  | .startSeq => Sys2Proof.Machine.execStartSeq s
  | .closeSeq => Sys2Proof.Machine.execCloseSeq s
  | .pre => Sys2Proof.Machine.execPre s
  | .post => Sys2Proof.Machine.execPost s
  -- CMD8
  | .nop => Sys2Proof.Machine.execNop s
  | .start => Sys2Proof.Machine.execStart s
  | .stop => Sys2Proof.Machine.execStop s
  | .cmdReserved v => Sys2Proof.Machine.execCmdReserved v s
  -- ACCESS
  | .regRd n => Sys2Proof.Machine.execRegRd n s
  | .regWr n v => Sys2Proof.Machine.execRegWr n v s
  | .txtWr text => Sys2Proof.Machine.execTxtWr text s
  | .reset => Sys2Proof.Machine.execReset s
  -- FUNC
  | .encode text verbose => Sys2Proof.Machine.execEncode text verbose s
  | .synthesize units c => Sys2Proof.Machine.execSynthesize units c s
  | .grd => Sys2Proof.Machine.execGrd s
  | .lookup k => Sys2Proof.Machine.execLookup k s
  | .upper c => Sys2Proof.Machine.execUpper c s
  | .modeOf k => Sys2Proof.Machine.execModeOf k s
  | .emit k => Sys2Proof.Machine.execEmit k s
  | .seg f d => Sys2Proof.Machine.execSeg f d s
  | .amp t v => Sys2Proof.Machine.execAmp t v s
  -- EVT
  | .evText text => Sys2Proof.Machine.execEvText text s
  | .evEncBegin => Sys2Proof.Machine.execEvEncBegin s
  | .evChar c code => Sys2Proof.Machine.execEvChar c code s
  | .evUnsupported c => Sys2Proof.Machine.execEvUnsupported c s
  | .evEncSummary n => Sys2Proof.Machine.execEvEncSummary n s
  | .evEmptyInput => Sys2Proof.Machine.execEvEmptyInput s
  | .evInvalidConfig which value => Sys2Proof.Machine.execEvInvalidConfig which value s
  | .evPlaybackFinished => Sys2Proof.Machine.execEvPlaybackFinished s
  | .evTxComplete => Sys2Proof.Machine.execEvTxComplete s
  | .evTxStopped => Sys2Proof.Machine.execEvTxStopped s
  | .evDeviceFail => Sys2Proof.Machine.execEvDeviceFail s
  | .evPersistFail cause => Sys2Proof.Machine.execEvPersistFail cause s
  | .evSaved location => Sys2Proof.Machine.execEvSaved location s

end Sys2Proof.Machine
end

