-- ==== Sys2Proof/Machine/Requests.lean ====
section
/-! DEFINITION. The host's requests to the CORE: which instructions the host may issue (`44_host_controller.md` rule R290,
`43_commands.md` rule R240), and how a request is decoded and run. -/

namespace Sys2Proof.Machine

/-- The host may issue the commands, the accesses, its own events, and calls of the functions that touch no CORE state;
the rest, ENCODE and SYNTHESIZE with it, is the sequencer's: the host "does nothing else that touches CORE state" (R290;
log 6). -/
def hostMayIssue : Instr → Bool
  | .nop | .start | .stop | .cmdReserved _ => true
  | .regRd _ | .regWr _ _ | .txtWr _ | .reset => true
  | .lookup _ | .upper _ | .modeOf _ | .amp _ _ => true
  | .evPlaybackFinished | .evTxComplete | .evTxStopped | .evDeviceFail | .evPersistFail _ | .evSaved _ => true
  | .latA | .latB | .latC | .latD | .latE | .latF | .latG | .latH | .latI | .latJ | .latK | .latL | .latM
  | .latN | .latO | .latP | .latQ | .latR | .latS | .latT | .latU | .latV | .latW | .latX | .latY | .latZ
  | .fig0 | .fig1 | .fig2 | .fig3 | .fig4 | .fig5 | .fig6 | .fig7 | .fig8 | .fig9 | .figMinus | .figPlus
  | .figQuestion | .figColon | .figLeft | .figRight | .figDot | .figComma | .figSlash | .figSha | .figShcha
  | .figE | .figYu | .figChe | .rusA | .rusBe | .rusVe | .rusGhe | .rusDe | .rusIe | .rusZhe | .rusZe
  | .rusI | .rusShortI | .rusKa | .rusEl | .rusEm | .rusEn | .rusO | .rusPe | .rusEr | .rusEs | .rusTe
  | .rusU | .rusEf | .rusHa | .rusTse | .rusHard | .rusYeru | .rusSoft | .rusYa | .rusIo | .sp | .cr
  | .lf | .markLat | .markFigs | .markRus | .u0 | .u1 | .uh | .unitReserved | .startSeq | .closeSeq | .pre
  | .post | .encode _ _ | .synthesize _ _ | .grd | .emit _ | .seg _ _ | .evText _ | .evEncBegin | .evChar _ _
  | .evUnsupported _ | .evEncSummary _ | .evEmptyInput | .evInvalidConfig _ _ => false

/-- A request is decoded and, if the host may issue it, run. -/
def hostRequest (c : Code) (s : State) : Outcome :=
  match decode c with
  | .rejected e => .refused (.undecoded e)
  | .ok i => if hostMayIssue i then exec i s else .refused .notAHostRequest

end Sys2Proof.Machine
end

