-- ==== Sys2Proof/Machine/Sequencer.lean ====
section
/-! DEFINITION. The CORE sequencer: what it fetches and runs at each position, and where it stands next
(`10_state.md` rule R22, `41_baudot_encoder.md` rule R151, `42_fsk_synthesizer.md` rule R191, `43_commands.md` rule R250).
What it fetches are the text and the bit sequence (`20_memory.md` rule R77): a text element is folded and decoded to the
row of its character, a unit code is decoded to its row. -/

namespace Sys2Proof.Machine

/-- Move the sequencer. -/
def goTo (ph : Phase) (s : State) : State := { s with phase := ph }

/-- The keys of STARTSEQ, in order (R154). -/
def startKey : Fin 3 → Key
  | 0 => .marker .lat
  | 1 => crKey
  | 2 => lfKey

/-- The position after symbol `k` of STARTSEQ (R151). -/
def afterStart : Fin 3 → Phase
  | 0 => .encoding (.start 1)
  | 1 => .encoding (.start 2)
  | 2 => .encoding .body

/-- The keys of CLOSESEQ, in order (R161). -/
def closeKey : Fin 2 → Key
  | 0 => crKey
  | 1 => lfKey

/-- The position after symbol `k` of CLOSESEQ (R151). -/
def afterClose : Fin 2 → Phase
  | 0 => .encoding (.close 1)
  | 1 => .encoding .summary

/-- `E_TEXT_EVENTS`: the two events, a move each, so that a host's event can stand between them (R162, R290). -/
def textEventMove (k : Fin 2) (s : State) : State :=
  match k with
  | 0 => goTo (.encoding (.textEvents 1)) (textEvent s.txt s)
  | 1 => goTo (.encoding (.start 0)) (encodeBegin s)

/-- `E_BODY`: the element at `TXT_POS` is read and folded; the row it decodes to is run, or it is skipped with a warning;
after the last element comes CLOSESEQ (R151, R155, R156). -/
def bodyMove (s : State) : Outcome :=
  match s.txt[s.enc.txtPos]? with
  | none => .next (goTo (.encoding (.close 0)) s)
  | some c =>
    match decode (.elem (upper c)) with
    | .ok i => mapNext (exec i (readElem c s)) advanceText
    | .rejected _ => .next (advanceText (raise (.unsupportedCharacter (upper c)) (readElem c s)))

/-- `S_CHECK` (R191, R250). -/
def checkMove (s : State) : Outcome :=
  match fatalConfig s.cfg.params with
  | some e => .next (raise e s)
  | none => .next (goTo (.synthesizing .pre) (synthesizeEnter s.cfg.params s))

/-- `S_DATA`: the row of the next unit is run; after the last unit comes POST (R191). -/
def dataMove (s : State) : Outcome :=
  match s.bits[s.syn.unitPos]? with
  | none => .next (goTo (.synthesizing .post) s)
  | some u => mapNext (exec (decodeUnit u) s) advanceUnit

/-- One move of the sequencer; while `IDLE` it has none (R250; log 30). -/
def sequencerMove (s : State) : Outcome :=
  match s.phase with
  | .idle => .next s
  | .encoding (.textEvents k) => .next (textEventMove k s)
  | .encoding (.start k) => mapNext (exec (.emit (startKey k)) s) (goTo (afterStart k))
  | .encoding .body => bodyMove s
  | .encoding (.close k) => mapNext (exec (.emit (closeKey k)) s) (goTo (afterClose k))
  | .encoding .summary => .next (goTo (.synthesizing .check) (encodeFinish s))
  | .synthesizing .check => checkMove s
  | .synthesizing .pre => mapNext (exec .pre s) (goTo (.synthesizing .data))
  | .synthesizing .data => dataMove s
  | .synthesizing .post => mapNext (exec .post s) (goTo (.synthesizing .done))
  | .synthesizing .done => .next (goTo .idle (synthesizeFinish s))

end Sys2Proof.Machine
end

