-- ==== Sys2Proof/Machine/Step.lean ====
section
/-! DEFINITION. One step of the machine: the oldest slot of the inbox says who moves; with no slot pending the CORE
sequencer moves (log 2). -/

namespace Sys2Proof.Machine

/-- One step. -/
def step (s : State) : Host.Outcome State Fault Refusal :=
  match s.inbox with
  | [] => sequencerMove s
  | .core :: rest => sequencerMove { s with inbox := rest }
  | .request c :: rest => hostRequest c { s with inbox := rest }
  | .act a :: rest => hostMove a { s with inbox := rest }

/-- `s` with the host's next request a write of the table's bits to `CMD`, the one place where the CORE takes an
instruction as a bare word (log 3, log 4). -/
def State.withFetchWord (s : State) (_nbits w : Nat) : State := { s with inbox := .request (tableCode w) :: s.inbox }

end Sys2Proof.Machine
end

