-- ==== Sys2Proof/Safety.lean ====
section
/-! DEFINITION. What claims are stated in: the symbol sequences and the mode table of the encoder (`41_baudot_encoder.md`
rule R160), the segments of a synthesis, the invariant of the machine, and START as one transaction. -/

namespace Sys2Proof.Machine

/-! ## The encoder as a table (R160) -/

/-- The symbols one text element gives in a mode, and the mode after it (R160). -/
def symbolStep (p : Impl) (m : Mode) (c : Elem) : List Key × Mode :=
  match classOf p (.char (upper c)) with
  | none => ([], m)
  | some .neutral => ([.char (upper c)], m)
  | some (.mode m') => if m' = m then ([.char (upper c)], m) else ([.marker m', .char (upper c)], m')

/-- The symbols of the character loop from a mode on. -/
def bodySymbols (p : Impl) : Mode → List Elem → List Key
  | _, [] => []
  | m, c :: cs => (symbolStep p m c).1 ++ bodySymbols p (symbolStep p m c).2 cs

/-- The mode the character loop ends in. -/
def bodyMode (p : Impl) : Mode → List Elem → Mode
  | m, [] => m
  | m, c :: cs => bodyMode p (symbolStep p m c).2 cs

/-- STARTSEQ and CLOSESEQ (R101). -/
def startSymbols : List Key := [.marker .lat, crKey, lfKey]

@[inherit_doc startSymbols] def closeSymbols : List Key := [crKey, lfKey]

/-- The symbols of a text: `LAT,CR,LF`, the character loop from `LAT` on, `CR,LF` (R154, R161). -/
def textSymbols (p : Impl) (text : List Elem) : List Key :=
  startSymbols ++ bodySymbols p .lat text ++ closeSymbols

/-- The units of a symbol sequence (R90, R91). -/
def unitsOf (p : Impl) (ks : List Key) : List UnitCode := ks.flatMap fun k => frame (p.code k)

/-- The element is found in the table after `UPPER`. -/
def supported (c : Elem) : Bool := (rowOf (upper c)).isSome

/-- A record with the tag of its kind (R108). -/
def eventOf (k : EvKind) (payload : Payload) : Event := { kind := k, tag := k.tag, payload := payload }

/-- The event of one text element (R156, R163). -/
def elemEvents (p : Impl) (verbose : Bool) (c : Elem) : List Event :=
  if supported c then
    if verbose then [eventOf .char (.charCode (upper c) (p.code (.char (upper c))))] else []
  else [eventOf .unsupported (.char (upper c))]

/-- The events of one ENCODE, in order (R162). -/
def textEvents (p : Impl) (verbose : Bool) (text : List Elem) : List Event :=
  [eventOf .text (.text text), eventOf .encBegin .none] ++ text.flatMap (elemEvents p verbose) ++
    [eventOf .encSummary (.count (8 * (textSymbols p text).length))]

/-- `W` of R166: at how many elements a marker is put in, from a mode on. -/
def switches (p : Impl) : Mode → List Elem → Nat
  | _, [] => 0
  | m, c :: cs => (if (symbolStep p m c).2 = m then 0 else 1) + switches p (symbolStep p m c).2 cs

/-! ## The synthesizer as a list of segments (R191) -/

/-- A segment: a frequency and a duration. -/
abbrev Segment := BitVec 16 × Rat

/-- The segments of the units. -/
def unitList (c : SynParams) (units : List UnitCode) : List Segment :=
  units.map fun u => (unitFrequency c u, unitDuration c u)

/-- PRE, the units, POST (R191). -/
def segmentList (c : SynParams) (units : List UnitCode) : List Segment :=
  (c.markHz, Config.preDuration) :: unitList c units ++ [(c.markHz, Config.preDuration)]

/-- The phase after segments, from a phase on (R201). -/
def phaseAfter : Rat → List Segment → Rat
  | θ, [] => θ
  | θ, g :: gs => phaseAfter (frac (θ + g.1.toNat * g.2)) gs

/-- The samples of segments, from a phase on (R198, R200). -/
def samplesOf (p : Impl) (v : Rat) : Rat → List Segment → List Sample
  | _, [] => []
  | θ, g :: gs =>
    segmentSamples p θ g.1 (sampleCount p g.2) v ++ samplesOf p v (frac (θ + g.1.toNat * g.2)) gs

/-! ## The exact sample (R199, R210, R213) -/

/-- The real number lies on the upper side of the threshold (R210). -/
def realPast (t : Threshold) (r : ℝ) : Prop :=
  match t with
  | .above c => ∃ i, (c i : ℝ) < r
  | .notBelow c => ∀ i, (c i : ℝ) ≤ r

open Classical in
/-- `QUANT` of a real number (R210). -/
noncomputable def quantReal (p : Impl) (r : ℝ) : ℤ :=
  if r = ⌊r⌋ then ⌊r⌋ else if realPast (p.quant ⌊r⌋) r then ⌊r⌋ + 1 else ⌊r⌋

/-- `QUANT(sin(2π × θ) × v × A_HALF)`, with the sine and the π of the real numbers (R16, R199, R211, R213). -/
noncomputable def ampReal (p : Impl) (θ v : Rat) : ℤ := quantReal p (Real.sin (2 * Real.pi * θ) * v * (32767 / 2))

/-! ## The testable properties of the encoder (R167) and of the synthesizer (R219)

Each is a check of one encoding or one synthesis from reset; the model's tests run them. -/

/-- ENCODE of a text from reset. -/
def encoded (p : Impl) (text : List Elem) : State := encodeText p text false State.reset

/-- R167 (a): the units are one frame of eight for each symbol, start, five data, stop, half-stop. -/
def eightUnitsPerSymbol (p : Impl) (text : List Elem) : Bool :=
  let ks := textSymbols p text
  let bits := (encoded p text).bits
  bits.length == 8 * ks.length && parseFrames ks.length bits == some (ks.map p.code)

/-- R167 (b): the units begin with those of `LAT,CR,LF` and end with those of `CR,LF`. -/
def beginsAndEnds (p : Impl) (text : List Elem) : Bool :=
  (unitsOf p startSymbols).isPrefixOf (encoded p text).bits && (unitsOf p closeSymbols).isSuffixOf (encoded p text).bits

/-- R167 (c): after a character of the mode `m`, one of the mode `n` adds its own frame, and before it the frame of the
marker of `n` if `n` is not `m`. -/
def switchMinimal (p : Impl) (c d : Elem) : Bool :=
  match classOf p (.char (upper c)), classOf p (.char (upper d)) with
  | some (.mode m), some (.mode n) =>
    bodySymbols p .lat [c, d] ==
      bodySymbols p .lat [c] ++ (if m = n then [] else [.marker n]) ++ [.char (upper d)] &&
    (encoded p [c, d]).bits == unitsOf p (startSymbols ++ bodySymbols p .lat [c, d] ++ closeSymbols)
  | _, _ => true

/-- R167 (d): a space after a character adds one frame and leaves the mode, and the character again adds one frame. -/
def spaceNeutral (p : Impl) (c : Elem) : Bool :=
  let space : Elem := 0x0020#21
  (encoded p [c, space]).mode == (encoded p [c]).mode &&
    (encoded p [c, space]).bits.length == (encoded p [c]).bits.length + 8 &&
    (encoded p [c, space, c]).bits.length == (encoded p [c]).bits.length + 16

/-- R167 (e): a text of unsupported characters gives `LAT,CR,LF,CR,LF`, 40 units, and one warning for each. -/
def unsupportedOnly (p : Impl) (text : List Elem) : Bool :=
  text.any supported ||
    (let s := encoded p text
     s.bits == unitsOf p (startSymbols ++ closeSymbols) && s.bits.length == 40 &&
       (s.evt.filter fun e => e.kind == .unsupported).length == text.length)

/-- The states before each segment and after the last. -/
def segmentStates (p : Impl) : State → List Segment → List State
  | s, [] => [s]
  | s, g :: gs => s :: segmentStates p (runSegment p g.1 g.2 s) gs

/-- The states of a synthesis from reset, segment by segment. -/
def synthesisStates (p : Impl) (c : SynParams) (units : List UnitCode) : List State :=
  segmentStates p (synthesizeEnter c State.reset) (segmentList c units)

/-- R219 (a): the phase of sample 0 of each segment is the phase the segment before it ends at. -/
def phaseContinuous (p : Impl) (c : SynParams) (units : List UnitCode) : Bool :=
  let ss := synthesisStates p c units
  let gs := segmentList c units
  (((ss.zip ss.tail).zip gs).zip gs.tail).all fun x =>
    frac (x.1.1.2.theta + x.2.1.toNat * 0 / Config.sampleRate) == frac (x.1.1.1.theta + x.1.2.1.toNat * x.1.2.2)

/-- R219 (b), R205: the sample count is `2 × ROUND(44100 × 0.3)` and the sum over the units of
`ROUND(44100 × d1 × (1/2 if the unit is UH, else 1))`. -/
def countFormula (p : Impl) (c : SynParams) (units : List UnitCode) : Bool :=
  ((synthesisStates p c units).getLast?.map fun s => s.syn.sampleCnt) ==
    some (2 * roundTie p.tie (44100 * (3 / 10)) +
      (units.map fun u => roundTie p.tie (44100 * fullUnit c * (if u = 0b10#2 then 1 / 2 else 1))).sum)

/-- R219 (d): a baud rate that is not positive is rejected: no sample, no total, `INVALID_CONFIG`, one event. -/
def rejectsBaud (p : Impl) (c : SynParams) (units : List UnitCode) : Bool :=
  0 < baudOf c ||
    match synthesizeUnits p units c State.reset with
    | .next t => t.result == .invalidConfig && t.pcm == [] && t.totalSamples == 0 && t.phase == .idle &&
        t.evt == [eventOf .invalidConfig (.config .baud (baudOf c))]
    | .fault _ => false
    | .refused _ => false

/-- R219 (e): the volume fraction is inside [0, 1], 0 below and 1 above, and the clamping is flagged and reported, never
fatal. -/
def clampsVolume (c : SynParams) : Bool :=
  let s := synthesizeEnter c State.reset
  let out : Bool := volumeOf c < 0 || 100 < volumeOf c
  s.syn.v == (if volumeOf c < 0 then 0 else if 100 < volumeOf c then 1 else (volumeOf c : Rat) / 100) &&
    s.volClamped == out && s.phase == State.reset.phase &&
    s.evt == if out then [eventOf .invalidConfig (.config .volume (volumeOf c))] else []

/-! ## START as one transaction (R241) -/

/-- START in full, its steps in the order of R241: the guard, ENCODE, SYNTHESIZE. -/
def wholeSession (p : Impl) (s : State) : Outcome :=
  if s.phase ≠ .idle then .refused .startWhileBusy
  else if blank s.txt then .next (raise .emptyInput (openSession s))
  else
    let t := encodeText p s.txt s.verbose (openSession s)
    synthesizeUnits p t.bits t.cfg.params t

/-- `n` steps, stopping at the first fault or refusal. -/
def runFor : Nat → State → Outcome
  | 0, s => .next s
  | n + 1, s => onNext (step s) (runFor n)

/-! ## The invariant -/

/-- What holds of a session at each position of the sequencer (R31, R43, R166, R191). What it says of the totals and of
`PCM` while the session runs is the model's choice, since R351 lets no claim depend on them (log 40); that `BITS` holds
whole frames then is log 1's. -/
def sessionInv (s : State) : Prop :=
  match s.phase with
  | .idle => True
  | .encoding e =>
    s.result = .none ∧ s.totalUnits = 0 ∧ s.totalSamples = 0 ∧ s.pcm = [] ∧ blank s.txt = false ∧
    match e with
    | .textEvents _ => s.bits = []
    | .start k => s.mode = .lat ∧ s.enc.txtPos = 0 ∧ s.enc.unitCnt = s.bits.length ∧ s.bits.length = 8 * k.val
    | .body => s.enc.txtPos ≤ s.txt.length ∧ s.enc.unitCnt = s.bits.length ∧ 24 ≤ s.bits.length
    | .close k => s.enc.unitCnt = s.bits.length ∧ 24 + 8 * k.val ≤ s.bits.length
    | .summary => s.enc.unitCnt = s.bits.length ∧ 40 ≤ s.bits.length
  | .synthesizing q =>
    s.result = .none ∧ s.totalUnits = s.bits.length ∧ 40 ≤ s.bits.length ∧ s.totalSamples = 0 ∧
    match q with
    | .check => s.pcm = []
    | .pre => fatalConfig s.cfg.params = none ∧ 0 ≤ s.syn.v ∧ s.syn.v ≤ 1 ∧ s.theta = 0 ∧ s.syn.sampleCnt = 0 ∧
        s.syn.unitPos = 0 ∧ s.pcm = []
    | .data => fatalConfig s.cfg.params = none ∧ 0 ≤ s.syn.v ∧ s.syn.v ≤ 1 ∧ s.syn.unitPos ≤ s.bits.length ∧
        s.pcm.length ≤ s.syn.sampleCnt
    | .post => fatalConfig s.cfg.params = none ∧ 0 ≤ s.syn.v ∧ s.syn.v ≤ 1 ∧ s.pcm.length ≤ s.syn.sampleCnt
    | .done => s.pcm.length ≤ s.syn.sampleCnt

/-- The invariant of the machine: what every step keeps. -/
structure Inv (s : State) : Prop where
  /-- `THETA` is a `Turn` (R24). -/
  theta_turn : 0 ≤ s.theta ∧ s.theta < 1
  /-- `TXT` holds scalar values (R62). -/
  text_scalar : ∀ c ∈ s.txt, isScalar c = true
  /-- `TXT` holds at most `TEXT_MAX` elements (R37). -/
  text_length : s.txt.length ≤ Config.impl.textLimit
  /-- `BITS` never holds the reserved code (R96). -/
  bits_units : ∀ u ∈ s.bits, u ≠ 0b11#2
  /-- `BITS` holds whole frames (R63). -/
  bits_frames : s.bits.length % 8 = 0
  /-- A sample is inside -16384 to 16384 (R199). -/
  pcm_range : ∀ x ∈ s.pcm, -16384 ≤ x.toInt ∧ x.toInt ≤ 16384
  /-- An event carries the tag of its kind (R108). -/
  evt_tags : ∀ e ∈ s.evt, e.tag = e.kind.tag
  /-- The session's registers agree with the sequencer's position. -/
  session : sessionInv s
  /-- A WAV write is in flight only while its session owns the device (R274). -/
  host_job : s.hostSide.job.isSome = true → s.hostSide.dev.isSome = true

end Sys2Proof.Machine
end

