-- ==== Sys2Proof/Certificates/Slice0/Obligations.lean ====
section
/-! DEFINITION. The statements for the provers. Each docstring names the rules of `spec/` it formalises. The OPEN
parameters are `Config.impl`, of which nothing is known, or any `p : Impl`; the next state of an instruction is written
out in full, so that what it leaves unchanged is part of the statement (the frame). -/

open Sys2Proof Sys2Proof.Machine

/-! ## Encodings -/

/-- Decoding the code of a well-formed instruction gives it back, and every code that decodes is the code of that
instruction: no two rows share a code and no operand is dropped (R30, R96, R97, R98, R108). The rows of the formats
PSEUDO, ACCESS and FUNC "have no encoding" (R113): their codes are the model's own (log 5), and that no two rows share
a code rests on log 5 and on log 4. -/
def Obligations.DecodeEncodeAgree : Prop :=
  (∀ i : Instr, i.wellFormed = true → decode (encode i) = .ok i) ∧
  ∀ (c : Code) (i : Instr), decode c = .ok i → i.wellFormed = true ∧ encode i = c

/-- Codes written out from the tables of R97, R96, R30, R23, R33 and R108, one of each kind, and the reserved ones.
The code of the ACCESS row `regRd`, which R113 gives no encoding, and that a record with a wrong tag is rejected, of
which R108 says nothing, are the model's own (log 5). -/
def Obligations.DecodeWords : Prop :=
  decode (.elem 0x000041#21) = .ok .latA ∧ decode (.elem 0x00005A#21) = .ok .latZ ∧
  decode (.elem 0x000031#21) = .ok .fig1 ∧ decode (.elem 0x00002F#21) = .ok .figSlash ∧
  decode (.elem 0x000428#21) = .ok .figSha ∧ decode (.elem 0x000416#21) = .ok .rusZhe ∧
  decode (.elem 0x000401#21) = .ok .rusIo ∧ decode (.elem 0x000020#21) = .ok .sp ∧
  decode (.elem 0x00000D#21) = .ok .cr ∧ decode (.elem 0x00000A#21) = .ok .lf ∧
  decode (.elem 0x000061#21) = .rejected (.notInTable 0x000061#21) ∧
  decode (.elem 0x0020AC#21) = .rejected (.notInTable 0x0020AC#21) ∧
  decode (.elem 0x00D800#21) = .rejected .notScalar ∧ decode (.elem 0x110000#21) = .rejected .notScalar ∧
  decode (.marker 0b00#2) = .ok .markLat ∧ decode (.marker 0b01#2) = .ok .markFigs ∧
  decode (.marker 0b10#2) = .ok .markRus ∧ decode (.marker 0b11#2) = .rejected .reservedMode ∧
  decode (.unit 0b00#2) = .ok .u0 ∧ decode (.unit 0b01#2) = .ok .u1 ∧ decode (.unit 0b10#2) = .ok .uh ∧
  decode (.unit 0b11#2) = .ok .unitReserved ∧
  decode (.cmd 0x00#8) = .ok .nop ∧ decode (.cmd 0x01#8) = .ok .start ∧ decode (.cmd 0x02#8) = .ok .stop ∧
  decode (.cmd 0x03#8) = .ok (.cmdReserved 0x03#8) ∧ decode (.cmd 0xFF#8) = .ok (.cmdReserved 0xFF#8) ∧
  decode (.regRd 8) = .ok (.regRd 8) ∧ decode (.regRd 9) = .rejected (.noSuchRegister 9) ∧
  decode (.evt 0x05#8 0b00#2 (.count 56)) = .ok (.evEncSummary 56) ∧
  decode (.evt 0x01#8 0b10#2 (.text [])) = .ok (.evText []) ∧
  decode (.evt 0x13#8 0b01#2 .none) = .ok .evDeviceFail ∧
  decode (.evt 0x13#8 0b00#2 .none) = .rejected .wrongTag ∧
  decode (.evt 0x08#8 0b00#2 .none) = .rejected (.reservedKind 0x08#8)

/-- The frame of a key: the start unit, the five data units in list order, the stop unit, the half-stop unit (R91). -/
def Obligations.FieldAssembly : Prop :=
  ∀ (p : Impl) (k : Key),
    frame (p.code k) = [0b00#2] ++
      ([(p.code k).b1, (p.code k).b2, (p.code k).b3, (p.code k).b4, (p.code k).b5].map fun b =>
        if b = true then 0b01#2 else 0b00#2) ++ [0b01#2, 0b10#2]

/-- Frames read back: any sequence of codes is recovered from its units, eight units to a frame, and a unit sequence
that reads as a frame is that frame (R90, R92). -/
def Obligations.FramesReadBack : Prop :=
  (∀ cs : List Code5, (cs.flatMap frame).length = 8 * cs.length ∧ parseFrames cs.length (cs.flatMap frame) = some cs) ∧
  ∀ (us : List UnitCode) (c : Code5), parseFrame us = some c → us = frame c

/-! ## The Symbol Table -/

/-- LOOKUP on every key: the code of the 81 characters of R134 and of the three markers, "not found" on every other
character (R131, R134). -/
def Obligations.LookupEveryKey : Prop :=
  (∀ (m : Mode) (s : State),
    exec (.lookup (.marker m)) s = .next { s with ret := .code (some (Config.impl.code (.marker m))) }) ∧
  ∀ (c : Elem) (s : State), exec (.lookup (.char c)) s = .next { s with
    ret := .code (if (0x41 ≤ c.toNat ∧ c.toNat ≤ 0x5A) ∨ (0x30 ≤ c.toNat ∧ c.toNat ≤ 0x39) ∨
        c.toNat ∈ [0x2D, 0x2B, 0x3F, 0x3A, 0x28, 0x29, 0x2E, 0x2C, 0x2F, 0x20, 0x0D, 0x0A] ∨
        (0x410 ≤ c.toNat ∧ c.toNat ≤ 0x42F) ∨ c.toNat = 0x401
      then some (Config.impl.code (.char c)) else none) }

/-- MODEOF on every character, by the table of R133; the five letters of R135 are in `FIGS`; a character that LOOKUP
does not find is "not found" here too (R130). A marker has no class (R133), and what MODEOF answers for one is a free
value (log 24). -/
def Obligations.ModeOfEveryKey : Prop :=
  (∀ (m : Mode) (s : State), exec (.modeOf (.marker m)) s =
    .next { s with ret := .cls (Config.freeClass s.fresh), fresh := s.fresh + 1 }) ∧
  ∀ (c : Elem) (s : State), exec (.modeOf (.char c)) s = .next { s with
    ret := .cls (if 0x41 ≤ c.toNat ∧ c.toNat ≤ 0x5A then some (.mode .lat)
      else if (0x30 ≤ c.toNat ∧ c.toNat ≤ 0x39) ∨ c.toNat ∈ [0x2D, 0x2B, 0x3F, 0x3A, 0x28, 0x29, 0x2E, 0x2C, 0x2F] ∨
          c.toNat ∈ [0x428, 0x429, 0x42D, 0x42E, 0x427] then some (.mode .figs)
      else if (0x410 ≤ c.toNat ∧ c.toNat ≤ 0x42F) ∨ c.toNat = 0x401 then some (.mode .rus)
      else if c.toNat = 0x20 then some .neutral
      else if c.toNat = 0x0D ∨ c.toNat = 0x0A then some Config.impl.modeCtrl
      else none) }

/-- UPPER on every character, that it is idempotent, and that it keeps scalar values (R132). -/
def Obligations.UpperEveryChar : Prop :=
  (∀ (c : Elem) (s : State), exec (.upper c) s = .next { s with
    ret := .char (if 0x0061 ≤ c.toNat ∧ c.toNat ≤ 0x007A then c - 0x20#21
      else if 0x0430 ≤ c.toNat ∧ c.toNat ≤ 0x044F then c - 0x20#21
      else if c = 0x0451#21 then 0x0401#21
      else c) }) ∧
  ∀ c : Elem, upper (upper c) = upper c ∧ (isScalar c = true → isScalar (upper c) = true)

/-! ## The symbols -/

/-- A character whose class is the current mode: its frame alone, `UNIT_CNT + 8`, `MODE` unchanged, and the verbose
event when `cfg.verbose` is 1. The rows are the 81 character rows (R159, R163). -/
def Obligations.SameModeSymbol : Prop :=
  ∀ r ∈ symRows, ∀ s : State, classOfRow Config.impl r.cls = .mode s.mode →
    exec r.instr s = .next { s with
      bits := s.bits ++ frame (Config.impl.code (.char r.elem))
      enc := { s.enc with unitCnt := s.enc.unitCnt + 8 }
      evt := s.evt ++ if s.cfg.verbose = true
        then [⟨.char, .info, .charCode r.elem (Config.impl.code (.char r.elem))⟩] else [] }

/-- A character of another mode: the marker of that mode, then the character, sixteen units, and `MODE` becomes that
mode (R158, R163). -/
def Obligations.ModeSwitchSymbol : Prop :=
  ∀ r ∈ symRows, ∀ (m : Mode) (s : State), classOfRow Config.impl r.cls = .mode m → m ≠ s.mode →
    exec r.instr s = .next { s with
      mode := m
      bits := s.bits ++ frame (Config.impl.code (.marker m)) ++ frame (Config.impl.code (.char r.elem))
      enc := { s.enc with unitCnt := s.enc.unitCnt + 16 }
      evt := s.evt ++ if s.cfg.verbose = true
        then [⟨.char, .info, .charCode r.elem (Config.impl.code (.char r.elem))⟩] else [] }

/-- The space in any mode: its own frame, no marker, `MODE` unchanged (R157, R163). -/
def Obligations.SpaceIsNeutral : Prop :=
  ∀ s : State, exec .sp s = .next { s with
    bits := s.bits ++ frame (Config.impl.code (.char 0x0020#21))
    enc := { s.enc with unitCnt := s.enc.unitCnt + 8 }
    evt := s.evt ++ if s.cfg.verbose = true
      then [⟨.char, .info, .charCode 0x0020#21 (Config.impl.code (.char 0x0020#21))⟩] else [] }

/-- CR and LF inside the text: as the space if `MODE_CTRL` is `NEUTRAL`, as a character of that mode if it is a mode
(R172). -/
def Obligations.ControlSymbols : Prop :=
  ∀ (i : Instr) (c : Elem), (i, c) ∈ [(.cr, 0x000D#21), (.lf, 0x000A#21)] → ∀ s : State,
    exec i s = .next { s with
      mode := match Config.impl.modeCtrl with
        | .neutral => s.mode
        | .mode m => m
      bits := s.bits ++ (match Config.impl.modeCtrl with
        | .neutral => []
        | .mode m => if m = s.mode then [] else frame (Config.impl.code (.marker m))) ++
          frame (Config.impl.code (.char c))
      enc := { s.enc with unitCnt := s.enc.unitCnt + (match Config.impl.modeCtrl with
        | .neutral => 8
        | .mode m => if m = s.mode then 8 else 16) }
      evt := s.evt ++ if s.cfg.verbose = true then [⟨.char, .info, .charCode c (Config.impl.code (.char c))⟩] else [] }

/-- A mode marker: its frame, and `MODE` becomes the mode it names (R99, R158). -/
def Obligations.MarkerSymbols : Prop :=
  ∀ (i : Instr) (m : Mode), (i, m) ∈ [(.markLat, .lat), (.markFigs, .figs), (.markRus, .rus)] → ∀ s : State,
    exec i s = .next { s with
      mode := m
      bits := s.bits ++ frame (Config.impl.code (.marker m))
      enc := { s.enc with unitCnt := s.enc.unitCnt + 8 } }

/-- EMIT of a key that LOOKUP finds appends its frame and adds 8 to `UNIT_CNT` (R152). The rule gives EMIT of another
key no behaviour; that the model refuses it is its own choice (log 5). -/
def Obligations.EmitKey : Prop :=
  ∀ (k : Key) (s : State),
    (k.present = true → exec (.emit k) s = .next { s with
      bits := s.bits ++ frame (Config.impl.code k)
      enc := { s.enc with unitCnt := s.enc.unitCnt + 8 } }) ∧
    (k.present = false → exec (.emit k) s = .refused .emitNotFound)

/-- STARTSEQ is `LAT,CR,LF`, CLOSESEQ is `CR,LF`, whatever the mode and whatever `MODE_CTRL`; `MODE` is unchanged (R154,
R161). -/
def Obligations.FixedSequences : Prop :=
  ∀ s : State,
    exec .startSeq s = .next { s with
      bits := s.bits ++ frame (Config.impl.code (.marker .lat)) ++ frame (Config.impl.code (.char 0x000D#21)) ++
        frame (Config.impl.code (.char 0x000A#21))
      enc := { s.enc with unitCnt := s.enc.unitCnt + 24 } } ∧
    exec .closeSeq s = .next { s with
      bits := s.bits ++ frame (Config.impl.code (.char 0x000D#21)) ++ frame (Config.impl.code (.char 0x000A#21))
      enc := { s.enc with unitCnt := s.enc.unitCnt + 16 } }

/-! ## ENCODE -/

/-- ENCODE of any text: the units of its symbol sequence, its events in order, the mode it ends in, the total, the
flag, and nothing else of the architecture (R150, R151, R160, R162 to R165); the encoder's working registers end
undefined (log 17). That `UNSUP_SEEN` and `BITS` keep what stood there, so that the flag may be set from before, is
the model's choice (log 38): only START clears them. While a session runs the call is refused (log 22). -/
def Obligations.EncodeMeaning : Prop :=
  ∀ (text : List Elem) (v : Bool) (s : State),
    (s.phase = .idle → exec (.encode text v) s = .next { s with
      bits := s.bits ++ unitsOf Config.impl (textSymbols Config.impl text)
      evt := s.evt ++ textEvents Config.impl v text
      mode := bodyMode Config.impl .lat text
      totalUnits := 8 * (textSymbols Config.impl text).length
      unsupSeen := s.unsupSeen || text.any fun c => (rowOf (upper c)).isNone
      enc := Config.freeEnc s.fresh
      fresh := s.fresh + 1 }) ∧
    (s.phase ≠ .idle → exec (.encode text v) s = .refused .callWhileBusy)

/-- The mode state machine, each line of the table of R160, with R172 for CR and LF. -/
def Obligations.ModeTable : Prop :=
  ∀ (p : Impl) (m : Mode) (c : Elem),
    (rowOf (upper c) = none → symbolStep p m c = ([], m)) ∧
    ∀ r, rowOf (upper c) = some r →
      (r.cls = .neutral → symbolStep p m c = ([.char (upper c)], m)) ∧
      (r.cls = .needs m → symbolStep p m c = ([.char (upper c)], m)) ∧
      (∀ n, r.cls = .needs n → n ≠ m → symbolStep p m c = ([.marker n, .char (upper c)], n)) ∧
      (r.cls = .ctrl → p.modeCtrl = .neutral → symbolStep p m c = ([.char (upper c)], m)) ∧
      (r.cls = .ctrl → p.modeCtrl = .mode m → symbolStep p m c = ([.char (upper c)], m)) ∧
      (∀ n, r.cls = .ctrl → p.modeCtrl = .mode n → n ≠ m → symbolStep p m c = ([.marker n, .char (upper c)], n))

/-- The count: `5 + S + W` symbols, eight units each, with `W ≤ S ≤ len(text)` (R166). -/
def Obligations.UnitCount : Prop :=
  ∀ (text : List Elem) (v : Bool) (s : State), s.phase = .idle → ∃ t, exec (.encode text v) s = .next t ∧
    t.totalUnits = 8 * (5 + text.countP supported + switches Config.impl .lat text) ∧
    t.bits.length = s.bits.length + t.totalUnits ∧
    switches Config.impl .lat text ≤ text.countP supported ∧ text.countP supported ≤ text.length ∧
    40 ≤ t.totalUnits ∧ t.totalUnits ≤ 8 * (5 + 2 * text.length)

/-- Every output begins with `LAT,CR,LF` and ends with `CR,LF`, for every text, the empty one too; between them stands a
whole number of frames (R154, R161, R167 b). -/
def Obligations.BeginsAndEnds : Prop :=
  ∀ (text : List Elem) (v : Bool) (s : State), s.phase = .idle → ∃ t cs, exec (.encode text v) s = .next t ∧
    t.bits = s.bits ++ (frame (Config.impl.code (.marker .lat)) ++ frame (Config.impl.code (.char 0x000D#21)) ++
        frame (Config.impl.code (.char 0x000A#21)) ++ List.flatMap frame cs ++
        frame (Config.impl.code (.char 0x000D#21)) ++ frame (Config.impl.code (.char 0x000A#21)))

/-- Two consecutive supported characters of one mode have no marker between them, and a change of mode puts exactly one
marker before the first character of the new mode (R167 c). -/
def Obligations.SwitchMinimality : Prop :=
  ∀ (p : Impl) (m : Mode) (c : Elem) (cs : List Elem) (n : Mode), classOf p (.char (upper c)) = some (.mode n) →
    bodySymbols p m (c :: cs) =
      (if n = m then [] else [.marker n]) ++ [.char (upper c)] ++ bodySymbols p n cs

/-- The verbose flag adds `EV_CHAR` events and changes nothing else (R150, R163). -/
def Obligations.VerboseOnlyAddsEvents : Prop :=
  ∀ (text : List Elem) (s : State), s.phase = .idle → ∃ t t' es es',
    exec (.encode text true) s = .next t ∧ exec (.encode text false) s = .next t' ∧
    t = { t' with evt := t.evt } ∧ t.evt = s.evt ++ es ∧ t'.evt = s.evt ++ es' ∧
    es' = es.filter (fun e => e.kind ≠ .char) ∧ (es.filter fun e => e.kind = .char).length = text.countP supported

/-- A text encodes as if its unsupported characters were not there, and each of them gives one warning, in text order,
also when it occurs twice (R156, R302). -/
def Obligations.UnsupportedSkipped : Prop :=
  ∀ (text : List Elem) (v : Bool) (s : State), s.phase = .idle → ∃ t t' es,
    exec (.encode text v) s = .next t ∧ exec (.encode (text.filter supported) v) s = .next t' ∧
    t.bits = t'.bits ∧ t.mode = t'.mode ∧ t.totalUnits = t'.totalUnits ∧ t.evt = s.evt ++ es ∧
    (es.filter fun e => e.kind = .unsupported) =
      (text.filter fun c => !supported c).map fun c => ⟨.unsupported, .warn, .char (upper c)⟩

/-! ## The commands and the guard -/

/-- GRD on its own: a blank text raises `EmptyInput`, another text changes nothing but what is returned; a text is blank
when every element is one of the six of R243 (R242, R243). -/
def Obligations.GuardMeaning : Prop :=
  (∀ text : List Elem, blank text = true ↔ ∀ c ∈ text, c.toNat ∈ [0x9, 0xA, 0xB, 0xC, 0xD, 0x20]) ∧
  ∀ s : State,
    (blank s.txt = true → exec .grd s = .next { s with
      evt := s.evt ++ [⟨.emptyInput, .warn, .none⟩]
      result := .emptyInput
      phase := .idle
      ret := .blank true }) ∧
    (blank s.txt = false → exec .grd s = .next { s with ret := .blank false })

/-- START while `IDLE`: the outcome cleared, `BITS` and `PCM` emptied, the configuration latched; a blank text ends the
session at once with `EmptyInput`, another enters the encoder (R34, R43, R241, R242). While not `IDLE` it is refused
(R244). -/
def Obligations.StartMeaning : Prop :=
  ∀ s : State,
    (s.phase = .idle → blank s.txt = false → exec .start s = .next { s with
      phase := .encoding (.textEvents 0)
      result := .none
      volClamped := false
      unsupSeen := false
      totalUnits := 0
      totalSamples := 0
      bits := []
      pcm := []
      cfg := { params := { baudCb := s.baudCb, markHz := s.markHz, spaceHz := s.spaceHz, volPct := s.volPct },
               verbose := s.verbose } }) ∧
    (s.phase = .idle → blank s.txt = true → exec .start s = .next { s with
      result := .emptyInput
      volClamped := false
      unsupSeen := false
      totalUnits := 0
      totalSamples := 0
      bits := []
      pcm := []
      evt := s.evt ++ [⟨.emptyInput, .warn, .none⟩]
      cfg := { params := { baudCb := s.baudCb, markHz := s.markHz, spaceHz := s.spaceHz, volPct := s.volPct },
               verbose := s.verbose } }) ∧
    (s.phase ≠ .idle → exec .start s = .refused .startWhileBusy)

/-- NOP and STOP change no state, in any `STATE` (R30, R246). -/
def Obligations.NopAndStop : Prop :=
  ∀ s : State, exec .nop s = .next s ∧ exec .stop s = .next s

/-- A write of a value to register 0 is the command of its low byte, and register 0 reads 0 (R30, R247). -/
def Obligations.CommandRegister : Prop :=
  ∀ (v : BitVec 64) (s : State),
    exec (.regWr 0 v) s = exec (decodeCmd (v.setWidth 8)) s ∧ exec (.regRd 0) s = .next { s with ret := .reg 0 0 }

/-- The stops the spec gives: a reserved command, the reserved unit code, a register number that does not exist
(R96, R112). -/
def Obligations.ReservedRefused : Prop :=
  ∀ s : State, exec .unitReserved s = .refused .reservedUnit ∧
    (∀ b : Byte, 3 ≤ b.toNat →
      decode (.cmd b) = .ok (.cmdReserved b) ∧ exec (.cmdReserved b) s = .refused (.reservedCommand b)) ∧
    ∀ n, 9 ≤ n → exec (.regRd n) s = .refused (.noSuchRegister n) ∧
      ∀ v, exec (.regWr n v) s = .refused (.noSuchRegister n)

/-! ## The registers, the text, reset -/

/-- REGRD of each register, with no side effect; the layout of `STATUS` and of `CTRL` (R29, R31, R33, R247). -/
def Obligations.RegisterReads : Prop :=
  ∀ s : State,
    exec (.regRd 1) s = .next { s with
      ret := .reg 1 ((match s.phase with | .idle => 0 | .encoding _ => 1 | .synthesizing _ => 2) +
        4 * (match s.result with | .none => 0 | .ok => 1 | .emptyInput => 2 | .invalidConfig => 3) +
        (if s.volClamped = true then 32 else 0) + (if s.unsupSeen = true then 64 else 0)) } ∧
    exec (.regRd 2) s = .next { s with ret := .reg 2 s.baudCb.toNat } ∧
    exec (.regRd 3) s = .next { s with ret := .reg 3 s.markHz.toNat } ∧
    exec (.regRd 4) s = .next { s with ret := .reg 4 s.spaceHz.toNat } ∧
    exec (.regRd 5) s = .next { s with ret := .reg 5 s.volPct.toNat } ∧
    exec (.regRd 6) s = .next { s with ret := .reg 6 (if s.verbose = true then 1 else 0) } ∧
    exec (.regRd 7) s = .next { s with ret := .reg 7 s.totalUnits } ∧
    exec (.regRd 8) s = .next { s with ret := .reg 8 s.totalSamples }

/-- REGWR of each register, in every `STATE`, the value truncated to the register's width; registers 1, 7 and 8 ignore
it (R29, R247, R348). -/
def Obligations.RegisterWrites : Prop :=
  ∀ (v : BitVec 64) (s : State),
    exec (.regWr 1 v) s = .next s ∧
    exec (.regWr 2 v) s = .next { s with baudCb := BitVec.ofNat 32 v.toNat } ∧
    exec (.regWr 3 v) s = .next { s with markHz := BitVec.ofNat 16 v.toNat } ∧
    exec (.regWr 4 v) s = .next { s with spaceHz := BitVec.ofNat 16 v.toNat } ∧
    exec (.regWr 5 v) s = .next { s with volPct := BitVec.ofNat 8 v.toNat } ∧
    exec (.regWr 6 v) s = .next { s with verbose := decide (v.toNat % 2 = 1) } ∧
    exec (.regWr 7 v) s = .next s ∧
    exec (.regWr 8 v) s = .next s

/-- TXTWR while `IDLE` of at most `TEXT_MAX` scalar values replaces the text; otherwise it is refused (R62, R249,
R346). -/
def Obligations.TextWrite : Prop :=
  ∀ (text : List Elem) (s : State),
    (s.phase = .idle → text.length ≤ Config.impl.textLimit → text.all isScalar = true →
      exec (.txtWr text) s = .next { s with txt := text }) ∧
    (s.phase ≠ .idle → exec (.txtWr text) s = .refused .textWriteWhileBusy) ∧
    (s.phase = .idle → text.all isScalar = false → exec (.txtWr text) s = .refused .notScalar) ∧
    (s.phase = .idle → text.all isScalar = true → Config.impl.textLimit < text.length →
      exec (.txtWr text) s = .refused .textTooLong)

/-- What reset leaves, for the state the spec gives a value (R42, R340); `State.reset` holds the model's own zero where
the spec says "unspecified" (log 13, log 14), of which this says nothing. -/
def Obligations.ResetValues : Prop :=
  State.reset.phase = .idle ∧ statusWord State.reset = 0x00#8 ∧ State.reset.baudCb = 4545 ∧ State.reset.markHz = 1170 ∧
  State.reset.spaceHz = 1000 ∧ State.reset.totalUnits = 0 ∧ State.reset.totalSamples = 0 ∧ State.reset.mode = .lat ∧
  State.reset.theta = 0 ∧ State.reset.txt = [] ∧ State.reset.bits = [] ∧ State.reset.pcm = [] ∧ State.reset.evt = []

/-- RESET in any `STATE`: the values of R42; what the spec leaves unspecified is a free value (log 15), what is the
host's stays (log 37) (R42, R248). -/
def Obligations.ResetInput : Prop :=
  ∀ s : State, exec .reset s = .next {
    phase := .idle
    result := .none
    volClamped := false
    unsupSeen := false
    baudCb := 4545
    markHz := 1170
    spaceHz := 1000
    volPct := Config.freeVolume s.fresh
    verbose := Config.freeVerbose s.fresh
    totalUnits := 0
    totalSamples := 0
    cfg := Config.freeLatched s.fresh
    mode := .lat
    theta := 0
    enc := Config.freeEnc s.fresh
    syn := Config.freeSyn s.fresh
    txt := []
    bits := []
    pcm := []
    evt := []
    ret := s.ret
    inbox := s.inbox
    fresh := s.fresh + 1
    hostSide := s.hostSide }

/-! ## Segments and samples -/

/-- `U0`, `U1` and `UH`: the tone, the count, the phase advance of each (R207, R208, R209). -/
def Obligations.UnitSegments : Prop :=
  ∀ (s : State) (b : Rat) (n1 nh : Nat), 0 < baudOf s.cfg.params →
    b = baudOf s.cfg.params → n1 = roundTie Config.impl.tie (4410000 / b) →
    nh = roundTie Config.impl.tie (2205000 / b) →
    (s.cfg.params.spaceHz ≠ 0 → exec .u0 s = .next { s with
      pcm := s.pcm ++ segmentSamples Config.impl s.theta s.cfg.params.spaceHz n1 s.syn.v
      theta := frac (s.theta + 100 * s.cfg.params.spaceHz.toNat / b)
      syn := { s.syn with
        segF := s.cfg.params.spaceHz
        segN := n1
        segI := if n1 = 0 then s.syn.segI else n1 - 1
        sampleCnt := s.syn.sampleCnt + n1 } }) ∧
    (s.cfg.params.markHz ≠ 0 → exec .u1 s = .next { s with
      pcm := s.pcm ++ segmentSamples Config.impl s.theta s.cfg.params.markHz n1 s.syn.v
      theta := frac (s.theta + 100 * s.cfg.params.markHz.toNat / b)
      syn := { s.syn with
        segF := s.cfg.params.markHz
        segN := n1
        segI := if n1 = 0 then s.syn.segI else n1 - 1
        sampleCnt := s.syn.sampleCnt + n1 } }) ∧
    (s.cfg.params.markHz ≠ 0 → exec .uh s = .next { s with
      pcm := s.pcm ++ segmentSamples Config.impl s.theta s.cfg.params.markHz nh s.syn.v
      theta := frac (s.theta + 50 * s.cfg.params.markHz.toNat / b)
      syn := { s.syn with
        segF := s.cfg.params.markHz
        segN := nh
        segI := if nh = 0 then s.syn.segI else nh - 1
        sampleCnt := s.syn.sampleCnt + nh } })

/-- PRE and POST: 13230 samples of the mark tone from the phase at hand, and the phase advances by `3 × fm / 10` turns
(R197, R203). -/
def Obligations.PreAndPost : Prop :=
  ∀ (i : Instr) (s : State), i ∈ [.pre, .post] → s.cfg.params.markHz ≠ 0 →
    exec i s = .next { s with
      pcm := s.pcm ++ segmentSamples Config.impl s.theta s.cfg.params.markHz 13230 s.syn.v
      theta := frac (s.theta + 3 * s.cfg.params.markHz.toNat / 10)
      syn := { s.syn with
        segF := s.cfg.params.markHz
        segN := 13230
        segI := 13229
        sampleCnt := s.syn.sampleCnt + 13230 } }

/-- SEG: the samples one by one, the phase advance by the nominal duration also when there are no samples (R198, R200,
R201, R216); outside its domain the model is stuck, and so is a row that runs a segment outside it (log 21). -/
def Obligations.SegmentMeaning : Prop :=
  (∀ (f : BitVec 16) (d : Rat) (s : State),
    (f ≠ 0 → 0 < d → exec (.seg f d) s = .next { s with
      pcm := s.pcm ++ (List.range (roundTie Config.impl.tie (44100 * d))).map fun (i : Nat) =>
        amp Config.impl (frac (s.theta + f.toNat * i / 44100)) s.syn.v
      theta := frac (s.theta + f.toNat * d)
      syn := { s.syn with
        segF := f
        segN := roundTie Config.impl.tie (44100 * d)
        segI := if roundTie Config.impl.tie (44100 * d) = 0 then s.syn.segI
          else roundTie Config.impl.tie (44100 * d) - 1
        sampleCnt := s.syn.sampleCnt + roundTie Config.impl.tie (44100 * d) } }) ∧
    (f = 0 → exec (.seg f d) s = .fault .zeroFrequency) ∧
    (f ≠ 0 → d ≤ 0 → exec (.seg f d) s = .fault .nonPositiveDuration)) ∧
  ∀ s : State,
    (s.cfg.params.markHz = 0 → ∀ i ∈ [Instr.pre, .post, .u1, .uh], exec i s = .fault .zeroFrequency) ∧
    (s.cfg.params.spaceHz = 0 → exec .u0 s = .fault .zeroFrequency) ∧
    (s.cfg.params.markHz ≠ 0 → baudOf s.cfg.params ≤ 0 → ∀ i ∈ [Instr.u1, .uh],
      exec i s = .fault .nonPositiveDuration) ∧
    (s.cfg.params.spaceHz ≠ 0 → baudOf s.cfg.params ≤ 0 → exec .u0 s = .fault .nonPositiveDuration)

/-- `ROUND` is the nearest natural where there is one nearest, and one of the two neighbours by the tie rule at an exact
tie (R196). -/
def Obligations.RoundNearest : Prop :=
  ∀ (tie : Tie) (q : Rat), 0 ≤ q →
    |q - (roundTie tie q : Rat)| ≤ 1 / 2 ∧
    (∀ n : Nat, |q - (n : Rat)| < 1 / 2 → roundTie tie q = n) ∧
    ∀ n : Nat, q = n + 1 / 2 →
      (tie = .up → roundTie tie q = n + 1) ∧ (tie = .even → roundTie tie q = if n % 2 = 0 then n else n + 1)

/-- AMP: what is returned, its range, the points at which the sine is exact, its sign on each half turn, silence at
volume 0, for every admissible quantiser (R199, R210, R214). For operands outside the domain of R199 what is returned
is a free value (log 41). -/
def Obligations.AmpValues : Prop :=
  (∀ (θ v : Rat) (s : State), ¬(0 ≤ θ ∧ θ < 1 ∧ 0 ≤ v ∧ v ≤ 1) →
    exec (.amp θ v) s = .next { s with ret := .sample (Config.freeSample s.fresh), fresh := s.fresh + 1 }) ∧
  ∀ (θ v : Rat) (s : State), 0 ≤ θ → θ < 1 → 0 ≤ v → v ≤ 1 → ∃ x : Sample,
    exec (.amp θ v) s = .next { s with ret := .sample x } ∧ x.toInt = ampInt Config.impl θ v ∧
    -16384 ≤ x.toInt ∧ x.toInt ≤ 16384 ∧
    (θ = 0 ∨ θ = 1 / 2 ∨ v = 0 → x = 0) ∧ (θ ≤ 1 / 2 → 0 ≤ x.toInt) ∧ (1 / 2 ≤ θ → x.toInt ≤ 0) ∧
    (θ = 1 / 4 → |(x.toInt : Rat) - v * (32767 / 2)| < 1) ∧ (θ = 3 / 4 → |(x.toInt : Rat) + v * (32767 / 2)| < 1) ∧
    (θ = 1 / 12 ∨ θ = 5 / 12 → |(x.toInt : Rat) - v * (32767 / 4)| < 1) ∧
    (θ = 7 / 12 ∨ θ = 11 / 12 → |(x.toInt : Rat) + v * (32767 / 4)| < 1)

/-- AMP is `QUANT` of the exact real number `sin(2πθ) × v × 16383.5`, and less than one from it, where `QUANT` is a
function with the three properties of R210; and every function with these properties is the `QUANT` of some
implementation (R199, R210, R211, R213). -/
def Obligations.AmpNearTheSine : Prop :=
  (∀ p : Impl, ∃ quant : ℝ → ℤ,
    ((∀ x, |(quant x : ℝ) - x| < 1) ∧ (∀ n : ℤ, quant n = n) ∧ Monotone quant) ∧
    ∀ θ v : Rat, 0 ≤ θ → θ < 1 → 0 ≤ v → v ≤ 1 →
      ampInt p θ v = quant (Real.sin (2 * Real.pi * (θ : ℝ)) * (v : ℝ) * (32767 / 2)) ∧
      |(ampInt p θ v : ℝ) - Real.sin (2 * Real.pi * (θ : ℝ)) * (v : ℝ) * (32767 / 2)| < 1) ∧
  ∀ quant : ℝ → ℤ, (∀ x, |(quant x : ℝ) - x| < 1) → (∀ n : ℤ, quant n = n) → Monotone quant →
    ∃ p : Impl, ∀ θ v : Rat, 0 ≤ θ → θ < 1 → 0 ≤ v → v ≤ 1 →
      ampInt p θ v = quant (Real.sin (2 * Real.pi * (θ : ℝ)) * (v : ℝ) * (32767 / 2))

/-! ## SYNTHESIZE -/

/-- SYNTHESIZE with a legal configuration: the samples of the preamble, the units, the postamble from phase 0; the
total; `OK`; a volume outside 0 to 100 is reported and clamped (R190, R191, R194, R204, R221). The working registers
end undefined (log 17). That `VOL_CLAMPED` and `PCM` keep what stood there, so that the flag may be set from before,
is the model's choice (log 38): only START clears them. While a session runs the call is refused (log 22). -/
def Obligations.SynthesizeMeaning : Prop :=
  ∀ (units : List UnitCode) (c : SynParams) (s : State),
    (s.phase = .idle → 0 < baudOf c → c.markHz ≠ 0 → c.spaceHz ≠ 0 → (∀ u ∈ units, u ≠ 0b11#2) →
      ∀ v : Rat, v = (if volumeOf c < 0 then 0 else if 100 < volumeOf c then 1 else (volumeOf c : Rat) / 100) →
      exec (.synthesize units c) s = .next { s with
        pcm := s.pcm ++ samplesOf Config.impl v 0 (segmentList c units)
        theta := phaseAfter 0 (segmentList c units)
        totalSamples := (samplesOf Config.impl v 0 (segmentList c units)).length
        result := .ok
        volClamped := s.volClamped || decide (volumeOf c < 0 ∨ 100 < volumeOf c)
        evt := s.evt ++ if volumeOf c < 0 ∨ 100 < volumeOf c
          then [⟨.invalidConfig, .warn, .config .volume (volumeOf c)⟩] else []
        syn := Config.freeSyn s.fresh
        fresh := s.fresh + 1 }) ∧
    (s.phase ≠ .idle → exec (.synthesize units c) s = .refused .callWhileBusy)

/-- The fatal checks in their order, and that the first that fails is the only one reported: one event, `RESULT` =
`INVALID_CONFIG`, no sample, nothing else (R192, R193, R307). That `TOTAL_SAMPLES` and `PCM` keep what stood there is
the model's choice (log 38): R191's "stays 0" and R308's "0 and empty" presuppose that START has cleared them. -/
def Obligations.SynthesizeFatal : Prop :=
  ∀ (units : List UnitCode) (c : SynParams) (s : State), s.phase = .idle →
    (baudOf c ≤ 0 → exec (.synthesize units c) s = .next { s with
      evt := s.evt ++ [⟨.invalidConfig, .warn, .config .baud (baudOf c)⟩]
      result := .invalidConfig }) ∧
    (0 < baudOf c → c.markHz = 0 → exec (.synthesize units c) s = .next { s with
      evt := s.evt ++ [⟨.invalidConfig, .warn, .config .mark 0⟩]
      result := .invalidConfig }) ∧
    (0 < baudOf c → c.markHz ≠ 0 → c.spaceHz = 0 → exec (.synthesize units c) s = .next { s with
      evt := s.evt ++ [⟨.invalidConfig, .warn, .config .space 0⟩]
      result := .invalidConfig })

/-- A unit list that holds the reserved code is refused, once the configuration has passed its checks (R96). -/
def Obligations.SynthesizeReserved : Prop :=
  ∀ (units : List UnitCode) (c : SynParams) (s : State), s.phase = .idle → 0 < baudOf c → c.markHz ≠ 0 →
    c.spaceHz ≠ 0 → 0b11#2 ∈ units → exec (.synthesize units c) s = .refused .reservedUnit

/-- The total sample count: 26460, and for each unit its own rounded count (R205). -/
def Obligations.SampleCount : Prop :=
  ∀ (units : List UnitCode) (c : SynParams) (s : State), s.phase = .idle → 0 < baudOf c → c.markHz ≠ 0 →
    c.spaceHz ≠ 0 → (∀ u ∈ units, u ≠ 0b11#2) → ∃ t, exec (.synthesize units c) s = .next t ∧
      t.totalSamples = 2 * roundTie Config.impl.tie (44100 * (3 / 10)) +
        (units.map fun u => roundTie Config.impl.tie (44100 * (100 / (baudOf c : Rat)) *
          (if u = 0b10#2 then 1 / 2 else 1))).sum ∧
      2 * roundTie Config.impl.tie (44100 * (3 / 10)) = 26460 ∧
      t.pcm.length = s.pcm.length + t.totalSamples

/-- Phase continuity: sample `j` of every segment has the phase left by all the segments before it, by their nominal
durations, plus `f × j / 44100` (R200, R201, R202). -/
def Obligations.PhaseContinuity : Prop :=
  (∀ (p : Impl) (v : Rat) (gs : List Segment) (g : Segment) (hs : List Segment) (j : Nat), j < sampleCount p g.2 →
    (samplesOf p v 0 (gs ++ g :: hs))[(gs.map fun h => sampleCount p h.2).sum + j]? =
      some (amp p (frac ((gs.map fun h => (h.1.toNat : Rat) * h.2).sum + g.1.toNat * j / 44100)) v)) ∧
  ∀ gs : List Segment, phaseAfter 0 gs = frac ((gs.map fun h => (h.1.toNat : Rat) * h.2).sum)

/-! ## Events and errors -/

/-- The seven CORE event rows append their record with the tag of R108, and change nothing else. -/
def Obligations.CoreEvents : Prop :=
  ∀ (t : List Elem) (c : Elem) (code : Code5) (n : Nat) (w : ConfigItem) (x : Int) (s : State),
    exec (.evText t) s = .next { s with evt := s.evt ++ [⟨.text, .highlight, .text t⟩] } ∧
    exec .evEncBegin s = .next { s with evt := s.evt ++ [⟨.encBegin, .info, .none⟩] } ∧
    exec (.evChar c code) s = .next { s with evt := s.evt ++ [⟨.char, .info, .charCode c code⟩] } ∧
    exec (.evUnsupported c) s = .next { s with evt := s.evt ++ [⟨.unsupported, .warn, .char c⟩] } ∧
    exec (.evEncSummary n) s = .next { s with evt := s.evt ++ [⟨.encSummary, .info, .count n⟩] } ∧
    exec .evEmptyInput s = .next { s with evt := s.evt ++ [⟨.emptyInput, .warn, .none⟩] } ∧
    exec (.evInvalidConfig w x) s = .next { s with evt := s.evt ++ [⟨.invalidConfig, .warn, .config w x⟩] }

/-- The six host event rows append their record with the tag of R108, and change nothing else. -/
def Obligations.HostEvents : Prop :=
  ∀ (t : List Elem) (s : State),
    exec .evPlaybackFinished s = .next { s with evt := s.evt ++ [⟨.playbackFinished, .info, .none⟩] } ∧
    exec .evTxComplete s = .next { s with evt := s.evt ++ [⟨.txComplete, .info, .none⟩] } ∧
    exec .evTxStopped s = .next { s with evt := s.evt ++ [⟨.txStopped, .info, .none⟩] } ∧
    exec .evDeviceFail s = .next { s with evt := s.evt ++ [⟨.deviceFail, .warn, .none⟩] } ∧
    exec (.evPersistFail t) s = .next { s with evt := s.evt ++ [⟨.persistFail, .warn, .text t⟩] } ∧
    exec (.evSaved t) s = .next { s with evt := s.evt ++ [⟨.saved, .info, .text t⟩] }

/-- The code of each error kind and whether it is fatal to the session (R110), and what taking it does: the event, then
`RESULT` and `STATE` for a fatal kind, the flag for a non-fatal one, nothing of the CORE for a host kind (R300, R304,
R308). -/
def Obligations.TakingErrors : Prop :=
  (∀ (c : Elem) (b x : Int) (cause : List Elem),
    [ErrorKind.emptyInput, .unsupportedCharacter c, .deviceAcquisitionFailure, .persistenceFailure cause, .invalidBaud b,
      .invalidMark, .invalidSpace, .invalidVolume x].map (fun e => (e.code, e.fatal)) =
      [(1, true), (2, false), (3, true), (4, false), (5, true), (5, true), (5, true), (5, false)]) ∧
  ∀ (c : Elem) (b x : Int) (cause : List Elem) (s : State),
    raise .emptyInput s =
      { s with evt := s.evt ++ [⟨.emptyInput, .warn, .none⟩], result := .emptyInput, phase := .idle } ∧
    raise (.unsupportedCharacter c) s =
      { s with evt := s.evt ++ [⟨.unsupported, .warn, .char c⟩], unsupSeen := true } ∧
    raise (.invalidBaud b) s =
      { s with evt := s.evt ++ [⟨.invalidConfig, .warn, .config .baud b⟩], result := .invalidConfig, phase := .idle } ∧
    raise .invalidMark s =
      { s with evt := s.evt ++ [⟨.invalidConfig, .warn, .config .mark 0⟩], result := .invalidConfig, phase := .idle } ∧
    raise .invalidSpace s =
      { s with evt := s.evt ++ [⟨.invalidConfig, .warn, .config .space 0⟩], result := .invalidConfig, phase := .idle } ∧
    raise (.invalidVolume x) s =
      { s with evt := s.evt ++ [⟨.invalidConfig, .warn, .config .volume x⟩], volClamped := true } ∧
    raise .deviceAcquisitionFailure s = { s with evt := s.evt ++ [⟨.deviceFail, .warn, .none⟩] } ∧
    raise (.persistenceFailure cause) s = { s with evt := s.evt ++ [⟨.persistFail, .warn, .text cause⟩] }

/-! ## Steps -/

/-- A step with a request pending decodes it and, if the host may issue the instruction, runs it; else it is refused
(R290; log 6). A bare table word placed by `withFetchWord` is run by the next step. The last part lists what the host
may issue: the commands, the accesses, the functions that touch no CORE state, its own events. -/
def Obligations.StepRunsRequest : Prop :=
  (∀ (c : Code) (rest : List Slot) (s : State), s.inbox = .request c :: rest →
    (∀ i, decode c = .ok i → hostMayIssue i = true → step s = exec i { s with inbox := rest }) ∧
    (∀ i, decode c = .ok i → hostMayIssue i = false → step s = .refused .notAHostRequest) ∧
    ∀ e, decode c = .rejected e → step s = .refused (.undecoded e)) ∧
  (∀ (nbits w : Nat) (i : Instr) (s : State), decodeTableWord nbits w = some i →
    step (s.withFetchWord nbits w) = exec i s) ∧
  ∀ i : Instr, hostMayIssue i = true ↔
    i ∈ [.nop, .start, .stop, .reset, .evPlaybackFinished, .evTxComplete, .evTxStopped, .evDeviceFail] ∨
    (∃ b, i = .cmdReserved b) ∨ (∃ n, i = .regRd n) ∨ (∃ n v, i = .regWr n v) ∨ (∃ t, i = .txtWr t) ∨
    (∃ k, i = .lookup k) ∨ (∃ c, i = .upper c) ∨ (∃ k, i = .modeOf k) ∨
    (∃ θ v, i = .amp θ v) ∨ (∃ t, i = .evPersistFail t) ∨ ∃ t, i = .evSaved t

/-- A step of the sequencer in the body of ENCODE folds and decodes the next element and runs its row, or takes
`UnsupportedCharacter`; in the data part of SYNTHESIZE it decodes the next unit and runs its row; around it the step
only writes `CUR` and moves to the next element or unit (R77, R151, R155, R191). -/
def Obligations.StepRunsSymbolOrUnit : Prop :=
  ∀ (rest : List Slot) (s s' : State), s.inbox = .core :: rest ∨ s.inbox = [] ∧ rest = [] →
    s' = { s with inbox := rest } →
    (∀ c, s.phase = .encoding .body → s.txt[s.enc.txtPos]? = some c →
      (∀ i, decode (.elem (upper c)) = .ok i →
        step s = mapNext (exec i { s' with enc := { s.enc with cur := upper c } })
          fun t => { t with enc := { t.enc with txtPos := t.enc.txtPos + 1 } }) ∧
      ∀ e, decode (.elem (upper c)) = .rejected e →
        step s = .next { s' with
          evt := s.evt ++ [⟨.unsupported, .warn, .char (upper c)⟩]
          unsupSeen := true
          enc := { s.enc with cur := upper c, txtPos := s.enc.txtPos + 1 } }) ∧
    ∀ u i, s.phase = .synthesizing .data → s.bits[s.syn.unitPos]? = some u → decode (.unit u) = .ok i →
      step s = mapNext (exec i s') fun t => { t with syn := { t.syn with unitPos := t.syn.unitPos + 1 } }

/-- The invariant holds at reset. -/
def Obligations.InvariantAtReset : Prop := Inv State.reset

/-- Every step keeps the invariant, whoever moves: `THETA` is a `Turn`, `TXT` holds scalar values, `BITS` holds whole
frames and never the reserved code, the samples are in range, the events carry their tags, the session's registers
agree with the sequencer's position (R24, R31, R62, R63, R96, R108, R199). While a session runs, that `BITS` holds
whole frames and what the totals and `PCM` hold rest on the model's moves (log 1, log 40), since R351 lets no claim
depend on them. -/
def Obligations.InvariantKept : Prop :=
  ∀ s t : State, Inv s → step s = .next t → Inv t

/-- Every session ends: from any state of the invariant with nothing pending the sequencer comes back to `IDLE`, with no
fault and no refusal on the way (R245, R250). -/
def Obligations.EverySessionEnds : Prop :=
  ∀ s : State, Inv s → s.inbox = [] → ∃ n t, runFor n s = .next t ∧ t.phase = .idle ∧
    (s.phase ≠ .idle → t.result ≠ .none)

/-- A START and the sequencer's moves after it, one at a time, come to exactly what START is in R241 as one transaction:
the guard, ENCODE, SYNTHESIZE (R20, R151, R191, R241, R250, R360). -/
def Obligations.SessionIsOneTransaction : Prop :=
  ∀ (s : State) (n : Nat), s.phase = .idle → s.inbox = [.request (.cmd 0x01#8)] → 55 + 17 * s.txt.length ≤ n →
    runFor n s = wholeSession Config.impl { s with inbox := [] }

/-- What a session leaves: the result, the channels, the totals, the flags, the events (R73, R192, R193, R194, R241,
R242, R301, R308). -/
def Obligations.SessionOutcome : Prop :=
  ∀ (p : Impl) (s : State) (c : SynParams), s.phase = .idle →
    c = { baudCb := s.baudCb, markHz := s.markHz, spaceHz := s.spaceHz, volPct := s.volPct } →
    ∃ t, wholeSession p s = .next t ∧ t.phase = .idle ∧ t.txt = s.txt ∧
      (blank s.txt = true → t.result = .emptyInput ∧ t.bits = [] ∧ t.pcm = [] ∧ t.totalUnits = 0 ∧ t.totalSamples = 0 ∧
        t.evt = s.evt ++ [⟨.emptyInput, .warn, .none⟩]) ∧
      (blank s.txt = false → t.bits = unitsOf p (textSymbols p s.txt) ∧ t.totalUnits = t.bits.length ∧
        t.unsupSeen = (s.txt.any fun e => (rowOf (upper e)).isNone) ∧ t.mode = bodyMode p .lat s.txt ∧
        (∀ e, fatalConfig c = some e → t.result = .invalidConfig ∧ t.pcm = [] ∧ t.totalSamples = 0 ∧
          t.volClamped = false ∧
          t.evt = s.evt ++ textEvents p s.verbose s.txt ++ [⟨.invalidConfig, .warn, errorPayload e⟩]) ∧
        (fatalConfig c = none → t.result = .ok ∧ t.pcm = samplesOf p (volumeFraction c) 0 (segmentList c t.bits) ∧
          t.totalSamples = t.pcm.length ∧ t.theta = phaseAfter 0 (segmentList c t.bits) ∧
          t.volClamped = decide (volumeOf c < 0 ∨ 100 < volumeOf c) ∧
          t.evt = s.evt ++ textEvents p s.verbose s.txt ++ if volumeOf c < 0 ∨ 100 < volumeOf c
            then [⟨.invalidConfig, .warn, .config .volume (volumeOf c)⟩] else []))

/-- No carry-over: two STARTs with the same text and the same configuration give the same `BITS`, the same `PCM` and the
same outcome, whatever else the two states hold (R44, R353). -/
def Obligations.NoCarryOver : Prop :=
  ∀ (p : Impl) (s s' : State), s.phase = .idle → s'.phase = .idle → s.txt = s'.txt → s.baudCb = s'.baudCb →
    s.markHz = s'.markHz → s.spaceHz = s'.spaceHz → s.volPct = s'.volPct → s.verbose = s'.verbose →
    ∃ t t' es, wholeSession p s = .next t ∧ wholeSession p s' = .next t' ∧ t.bits = t'.bits ∧ t.pcm = t'.pcm ∧
      t.result = t'.result ∧ t.totalUnits = t'.totalUnits ∧ t.totalSamples = t'.totalSamples ∧
      t.volClamped = t'.volClamped ∧ t.unsupSeen = t'.unsupSeen ∧ t.evt = s.evt ++ es ∧ t'.evt = s'.evt ++ es

/-- The configuration latch: a register write during a session changes the register and nothing of the session, so it
can stand before or after any move of the sequencer (R34, R348). -/
def Obligations.ConfigurationLatch : Prop :=
  ∀ (n : Nat) (v : BitVec 64) (s : State), 1 ≤ n → n ≤ 8 →
    ∃ w : State → State, (∀ x, exec (.regWr n v) x = .next (w x)) ∧
      sequencerMove (w s) = mapNext (sequencerMove s) w ∧ (w s).cfg = s.cfg

/-! ## The host -/

/-- What the host does by itself reaches `PCM`, `EVT`, the value returned, the pending slots and its own side, nothing
else of the CORE (R246, R275, R290). Its channel accesses: a pop gives the oldest sample or event and removes it, the
tap on `BITS` gives unit `k` and removes nothing (R70); playing moves the device's position (R273). That a pop of an
empty channel and a tap past the end answer "none", and that an answer stands in `ret`, is the model's choice (log 7). -/
def Obligations.HostFrame : Prop :=
  (∀ (a : HostAct) (s t : State), hostMove a s = .next t →
    t = { s with pcm := t.pcm, evt := t.evt, ret := t.ret, inbox := t.inbox, hostSide := t.hostSide }) ∧
  ∀ s : State,
    (∀ x xs, s.pcm = x :: xs → hostMove .popPcm s = .next { s with ret := .pcm (some x), pcm := xs }) ∧
    (s.pcm = [] → hostMove .popPcm s = .next { s with ret := .pcm none }) ∧
    (∀ e es, s.evt = e :: es → hostMove .popEvt s = .next { s with ret := .event (some e), evt := es }) ∧
    (s.evt = [] → hostMove .popEvt s = .next { s with ret := .event none }) ∧
    (∀ k, hostMove (.tapBits k) s = .next { s with ret := .unit s.bits[k]? }) ∧
    ∀ n, hostMove (.play n) s = .next { s with
      hostSide := { s.hostSide with dev := s.hostSide.dev.map fun d => { d with position := d.position + n } } }

/-- No move of the sequencer depends on what the host reaches: two states that differ only in `PCM`, `EVT`, the value
returned, the pending slots and the host's side move alike, and append the same samples and the same events (R64, R65,
R290). -/
def Obligations.CoreIgnoresHost : Prop :=
  ∀ (s s' t : State),
    s' = { s with pcm := s'.pcm, evt := s'.evt, ret := s'.ret, inbox := s'.inbox, hostSide := s'.hostSide } →
    sequencerMove s = .next t → ∃ xs es, t.pcm = s.pcm ++ xs ∧ t.evt = s.evt ++ es ∧
      sequencerMove s' = .next { t with
        pcm := s'.pcm ++ xs
        evt := s'.evt ++ es
        ret := s'.ret
        inbox := s'.inbox
        hostSide := s'.hostSide }

/-- `transmit` is the register writes, the text, START, in the order of R240, the baud rate converted to centibaud,
exactly where it is a whole number of hundredths that fits (R282); a second one before the first has returned is
refused (log 27). Once the CORE is `IDLE` with `OK`, the device of a prior session is released first (R272) and then
the new one takes the buffer out of `PCM` (log 28), or its acquisition fails; until then the rest of `transmit` waits
(R240, R270, R271, R272, R278). Whether the prior session's stop emits an event (N24) and what becomes of its write
(R280) are the host's. -/
def Obligations.TransmitMeaning : Prop :=
  (∀ (text : List Elem) (st : Settings) (s : State), s.hostSide.tx = false →
    hostMove (.transmit text st) s = .next { s with
      hostSide := { s.hostSide with tx := true, save := st.save }
      inbox := [.request (.regWr 2 ((centibaud Config.hostImpl st.baud).setWidth 64)),
        .request (.regWr 3 (st.markHz.setWidth 64)), .request (.regWr 4 (st.spaceHz.setWidth 64)),
        .request (.regWr 5 (st.volPct.setWidth 64)), .request (.regWr 6 (if st.verbose = true then 1 else 0)),
        .request (.txtWr text), .request (.cmd 0x01#8)] ++ s.inbox }) ∧
  (∀ (text : List Elem) (st : Settings) (s : State), s.hostSide.tx = true →
    hostMove (.transmit text st) s = .refused .transmitWhileTransmitting) ∧
  (∀ (q : HostImpl) (baud : Rat) (n : Int), baud = n / 100 → -2 ^ 31 ≤ n → n < 2 ^ 31 →
    (centibaud q baud).toInt = n) ∧
  ∀ (s : State) (prior : List Event) (h : HostSide),
    prior = (if s.hostSide.dev.isSome = true ∧ Config.hostImpl.priorStopEvent = true
      then [⟨.txStopped, .info, .none⟩] else []) →
    h = (if s.hostSide.dev.isSome = true
      then { s.hostSide with
        tx := false
        dev := none
        job := none
        orphans := if Config.hostImpl.saveCompletes = true then s.hostSide.orphans ++ s.hostSide.job.toList
          else s.hostSide.orphans }
      else { s.hostSide with tx := false }) →
    (s.hostSide.tx = true → s.phase = .idle → s.result = .ok →
      hostMove (.settle true) s = .next { s with
        pcm := []
        evt := s.evt ++ prior
        hostSide := { h with dev := some ⟨s.pcm, 0, s.hostSide.save⟩ } } ∧
      hostMove (.settle false) s = .next { s with
        evt := s.evt ++ prior ++ [⟨.deviceFail, .warn, .none⟩]
        hostSide := h }) ∧
    (s.hostSide.tx = true → s.phase = .idle → s.result ≠ .ok → ∀ b,
      hostMove (.settle b) s = .next { s with hostSide := { s.hostSide with tx := false } }) ∧
    (s.phase ≠ .idle ∨ s.hostSide.tx = false → ∀ b, hostMove (.settle b) s = .next s)

/-- The end of a playback: "playback finished", then the file and its result when the save flag is set, then
"transmission complete", then the device is released; before the end of the buffer, without a device, or while the
write is in flight, a poll does nothing (R273, R274, R276, R277, R279). That a file too long for its size fields is
refused is the model's reading (log 29). -/
def Obligations.PlaybackEnds : Prop :=
  (∀ s : State, s.hostSide.dev = none ∨ s.hostSide.job.isSome = true → hostMove .poll s = .next s) ∧
  (∀ (r : WriteResult) (s : State), s.hostSide.job = none → hostMove (.writeDone r) s = .next s) ∧
  ∀ (d : Playback) (s : State), s.hostSide.dev = some d →
    (s.hostSide.job = none → d.position < d.buffer.length → hostMove .poll s = .next s) ∧
    (s.hostSide.job = none → d.buffer.length ≤ d.position → d.save = false → hostMove .poll s = .next { s with
      evt := s.evt ++ [⟨.playbackFinished, .info, .none⟩, ⟨.txComplete, .info, .none⟩]
      hostSide := { s.hostSide with dev := none } }) ∧
    (s.hostSide.job = none → d.buffer.length ≤ d.position → d.save = true → wavFits d.buffer = true →
      hostMove .poll s = .next { s with
        evt := s.evt ++ [⟨.playbackFinished, .info, .none⟩]
        hostSide := { s.hostSide with job := some (wavImage d.buffer) } }) ∧
    (s.hostSide.job = none → d.buffer.length ≤ d.position → d.save = true → wavFits d.buffer = false →
      hostMove .poll s = .refused .wavTooLong) ∧
    ∀ image, s.hostSide.job = some image →
      (∀ location, hostMove (.writeDone (.saved location)) s = .next { s with
        evt := s.evt ++ [⟨.saved, .info, .text location⟩, ⟨.txComplete, .info, .none⟩]
        hostSide := { s.hostSide with dev := none, job := none, files := s.hostSide.files ++ [image] } }) ∧
      ∀ cause, hostMove (.writeDone (.failed cause)) s = .next { s with
        evt := s.evt ++ [⟨.persistFail, .warn, .text cause⟩, ⟨.txComplete, .info, .none⟩]
        hostSide := { s.hostSide with dev := none, job := none } }

/-- `stop()`: one "transmission stopped", the device released, the session destroyed, the controller `Idle`, from
`Playing` through `Stopped` (R270); a write in flight goes on or is dropped by `SAVE_AFTER_STOP` (R280); afterwards
neither a poll nor the end of a write of that session emits "playback finished" or "transmission complete" (R275,
R280). The end of a write of a stopped session, in any state: the file if it succeeded, its result if the host reports
it, nothing else (R280). That a `transmit` that waits and a prior session that plays are both ended, with one event,
is the model's choice (log 39), and so is that a `transmit` the CORE has rejected waits until its `settle` (log 44).
With no session it changes nothing, but that it may emit the event (N26). -/
def Obligations.StopMeaning : Prop :=
  ∀ s : State,
    (s.hostSide.dev = none → s.hostSide.tx = false → s.hostSide.job = none → hostMove .stop s = .next { s with
      evt := s.evt ++ if Config.hostImpl.idleStopEvent = true then [⟨.txStopped, .info, .none⟩] else [] }) ∧
    (s.hostSide.dev.isSome = true ∨ s.hostSide.tx = true ∨ s.hostSide.job.isSome = true →
      ∃ t, hostMove .stop s = .next t ∧
        t = { s with evt := s.evt ++ [⟨.txStopped, .info, .none⟩], hostSide := { s.hostSide with
          dev := none
          job := none
          tx := false
          orphans := if Config.hostImpl.saveCompletes = true then s.hostSide.orphans ++ s.hostSide.job.toList
            else s.hostSide.orphans } } ∧
        controllerState t = .idle ∧ (controllerState s = .playing → controllerPath .stop s t = [.stopped, .idle]) ∧
        hostMove .poll t = .next t ∧
        ∀ r, hostMove (.writeDone r) t = .next t ∧ ∀ k, ∃ u es, hostMove (.orphanDone k r) t = .next u ∧
          u.evt = t.evt ++ es ∧ ∀ e ∈ es, e.kind = .saved ∨ e.kind = .persistFail) ∧
    (∀ k r, s.hostSide.orphans[k]? = none → hostMove (.orphanDone k r) s = .next s) ∧
    ∀ k image, s.hostSide.orphans[k]? = some image →
      (∀ location, hostMove (.orphanDone k (.saved location)) s = .next { s with
        evt := s.evt ++ if Config.hostImpl.reportAfterStop = true then [⟨.saved, .info, .text location⟩] else []
        hostSide := { s.hostSide with
          files := s.hostSide.files ++ [image]
          orphans := s.hostSide.orphans.eraseIdx k } }) ∧
      ∀ cause, hostMove (.orphanDone k (.failed cause)) s = .next { s with
        evt := s.evt ++ if Config.hostImpl.reportAfterStop = true then [⟨.persistFail, .warn, .text cause⟩] else []
        hostSide := { s.hostSide with orphans := s.hostSide.orphans.eraseIdx k } }

/-- The WAV round trip: reading the written file back recovers the samples and the header fields; its length, its 44
header bytes one by one, and the two bytes of each sample (R79, R80). -/
def Obligations.WavRoundTrip : Prop :=
  ∀ buffer : List Sample, 2 * buffer.length + 36 < 2 ^ 32 →
    wavParse (wavImage buffer) =
      some { sampleRate := 44100, channels := 1, bitDepth := 16, samples := buffer } ∧
    (wavImage buffer).length = 44 + 2 * buffer.length ∧
    (∀ n : Nat, n = 2 * buffer.length → (wavImage buffer).take 44 =
      [0x52#8, 0x49#8, 0x46#8, 0x46#8, BitVec.ofNat 8 (n + 36), BitVec.ofNat 8 ((n + 36) / 2 ^ 8),
        BitVec.ofNat 8 ((n + 36) / 2 ^ 16), BitVec.ofNat 8 ((n + 36) / 2 ^ 24), 0x57#8, 0x41#8, 0x56#8, 0x45#8] ++
      [0x66#8, 0x6D#8, 0x74#8, 0x20#8, 0x10#8, 0x00#8, 0x00#8, 0x00#8, 0x01#8, 0x00#8, 0x01#8, 0x00#8,
        0x44#8, 0xAC#8, 0x00#8, 0x00#8, 0x88#8, 0x58#8, 0x01#8, 0x00#8, 0x02#8, 0x00#8, 0x10#8, 0x00#8] ++
      [0x64#8, 0x61#8, 0x74#8, 0x61#8, BitVec.ofNat 8 n, BitVec.ofNat 8 (n / 2 ^ 8), BitVec.ofNat 8 (n / 2 ^ 16),
        BitVec.ofNat 8 (n / 2 ^ 24)]) ∧
    ∀ (k : Nat) (x : Sample), buffer[k]? = some x → (wavImage buffer)[44 + 2 * k]? = some (x.setWidth 8) ∧
      (wavImage buffer)[45 + 2 * k]? = some ((x >>> 8).setWidth 8)
end

