-- ==== Sys2Proof/Laws/Arith.lean ====
section
/-! SUPPORT. The rational arithmetic of the rules: `frac` and `clamp`. The core's `Rat.floor` is Mathlib's floor, so
Mathlib's lemmas serve. -/

namespace Sys2Proof.Machine

theorem floor_eq (q : Rat) : q.floor = ⌊q⌋ := rfl

theorem ceil_eq (q : Rat) : q.ceil = ⌈q⌉ := by rw [Rat.ceil_eq_neg_floor_neg]; rfl

/-- `frac` is Mathlib's fractional part. -/
theorem frac_eq_fract (q : Rat) : frac q = Int.fract q := rfl

/-- `frac(q)` is a `Turn` (R212 a). -/
theorem frac_turn (q : Rat) : 0 ≤ frac q ∧ frac q < 1 := ⟨Int.fract_nonneg q, Int.fract_lt_one q⟩

/-- A `Turn` is its own fractional part. -/
theorem frac_of_turn {q : Rat} (h0 : 0 ≤ q) (h1 : q < 1) : frac q = q := Int.fract_eq_self.2 ⟨h0, h1⟩

/-- Adding to the fractional part is adding to the number. -/
theorem frac_frac_add (q r : Rat) : frac (frac q + r) = frac (q + r) := by
  simp only [frac_eq_fract, Int.fract]
  rw [show q - (⌊q⌋ : Rat) + r = (q + r) - ((⌊q⌋ : Int) : Rat) by ring, Int.floor_sub_intCast]
  push_cast; ring

theorem clamp_range (q : Rat) {lo hi : Rat} (h : lo ≤ hi) : lo ≤ clamp q lo hi ∧ clamp q lo hi ≤ hi := by
  unfold clamp; split
  · exact ⟨le_refl _, h⟩
  · split <;> constructor <;> linarith

theorem clamp_mono {q r : Rat} (h : q ≤ r) {lo hi : Rat} (hb : lo ≤ hi) : clamp q lo hi ≤ clamp r lo hi := by
  unfold clamp; split_ifs <;> linarith

end Sys2Proof.Machine
end

