-- ==== Sys2Proof/Laws/State.lean ====
section
/-! SUPPORT. One lemma per field per update of the state, each true by `rfl`, so that no proof unfolds a record update. -/

namespace Sys2Proof.Machine

variable (s : State)

/-! ## `pushEvent` -/

@[simp] theorem pushEvent_phase (k : EvKind) (pl : Payload) : (pushEvent k pl s).phase = s.phase := rfl
@[simp] theorem pushEvent_result (k : EvKind) (pl : Payload) : (pushEvent k pl s).result = s.result := rfl
@[simp] theorem pushEvent_volClamped (k : EvKind) (pl : Payload) : (pushEvent k pl s).volClamped = s.volClamped := rfl
@[simp] theorem pushEvent_unsupSeen (k : EvKind) (pl : Payload) : (pushEvent k pl s).unsupSeen = s.unsupSeen := rfl
@[simp] theorem pushEvent_baudCb (k : EvKind) (pl : Payload) : (pushEvent k pl s).baudCb = s.baudCb := rfl
@[simp] theorem pushEvent_markHz (k : EvKind) (pl : Payload) : (pushEvent k pl s).markHz = s.markHz := rfl
@[simp] theorem pushEvent_spaceHz (k : EvKind) (pl : Payload) : (pushEvent k pl s).spaceHz = s.spaceHz := rfl
@[simp] theorem pushEvent_volPct (k : EvKind) (pl : Payload) : (pushEvent k pl s).volPct = s.volPct := rfl
@[simp] theorem pushEvent_verbose (k : EvKind) (pl : Payload) : (pushEvent k pl s).verbose = s.verbose := rfl
@[simp] theorem pushEvent_totalUnits (k : EvKind) (pl : Payload) : (pushEvent k pl s).totalUnits = s.totalUnits := rfl
@[simp] theorem pushEvent_totalSamples (k : EvKind) (pl : Payload) :
    (pushEvent k pl s).totalSamples =
      s.totalSamples := rfl
@[simp] theorem pushEvent_cfg (k : EvKind) (pl : Payload) : (pushEvent k pl s).cfg = s.cfg := rfl
@[simp] theorem pushEvent_mode (k : EvKind) (pl : Payload) : (pushEvent k pl s).mode = s.mode := rfl
@[simp] theorem pushEvent_theta (k : EvKind) (pl : Payload) : (pushEvent k pl s).theta = s.theta := rfl
@[simp] theorem pushEvent_enc (k : EvKind) (pl : Payload) : (pushEvent k pl s).enc = s.enc := rfl
@[simp] theorem pushEvent_syn (k : EvKind) (pl : Payload) : (pushEvent k pl s).syn = s.syn := rfl
@[simp] theorem pushEvent_txt (k : EvKind) (pl : Payload) : (pushEvent k pl s).txt = s.txt := rfl
@[simp] theorem pushEvent_bits (k : EvKind) (pl : Payload) : (pushEvent k pl s).bits = s.bits := rfl
@[simp] theorem pushEvent_pcm (k : EvKind) (pl : Payload) : (pushEvent k pl s).pcm = s.pcm := rfl
@[simp] theorem pushEvent_evt (k : EvKind) (pl : Payload) :
    (pushEvent k pl s).evt =
      s.evt ++ [{ kind := k, tag := k.tag, payload := pl }] := rfl
@[simp] theorem pushEvent_ret (k : EvKind) (pl : Payload) : (pushEvent k pl s).ret = s.ret := rfl
@[simp] theorem pushEvent_inbox (k : EvKind) (pl : Payload) : (pushEvent k pl s).inbox = s.inbox := rfl
@[simp] theorem pushEvent_fresh (k : EvKind) (pl : Payload) : (pushEvent k pl s).fresh = s.fresh := rfl
@[simp] theorem pushEvent_hostSide (k : EvKind) (pl : Payload) : (pushEvent k pl s).hostSide = s.hostSide := rfl

/-! ## `answer` -/

@[simp] theorem answer_phase (r : Ret) : (answer r s).phase = s.phase := rfl
@[simp] theorem answer_result (r : Ret) : (answer r s).result = s.result := rfl
@[simp] theorem answer_volClamped (r : Ret) : (answer r s).volClamped = s.volClamped := rfl
@[simp] theorem answer_unsupSeen (r : Ret) : (answer r s).unsupSeen = s.unsupSeen := rfl
@[simp] theorem answer_baudCb (r : Ret) : (answer r s).baudCb = s.baudCb := rfl
@[simp] theorem answer_markHz (r : Ret) : (answer r s).markHz = s.markHz := rfl
@[simp] theorem answer_spaceHz (r : Ret) : (answer r s).spaceHz = s.spaceHz := rfl
@[simp] theorem answer_volPct (r : Ret) : (answer r s).volPct = s.volPct := rfl
@[simp] theorem answer_verbose (r : Ret) : (answer r s).verbose = s.verbose := rfl
@[simp] theorem answer_totalUnits (r : Ret) : (answer r s).totalUnits = s.totalUnits := rfl
@[simp] theorem answer_totalSamples (r : Ret) : (answer r s).totalSamples = s.totalSamples := rfl
@[simp] theorem answer_cfg (r : Ret) : (answer r s).cfg = s.cfg := rfl
@[simp] theorem answer_mode (r : Ret) : (answer r s).mode = s.mode := rfl
@[simp] theorem answer_theta (r : Ret) : (answer r s).theta = s.theta := rfl
@[simp] theorem answer_enc (r : Ret) : (answer r s).enc = s.enc := rfl
@[simp] theorem answer_syn (r : Ret) : (answer r s).syn = s.syn := rfl
@[simp] theorem answer_txt (r : Ret) : (answer r s).txt = s.txt := rfl
@[simp] theorem answer_bits (r : Ret) : (answer r s).bits = s.bits := rfl
@[simp] theorem answer_pcm (r : Ret) : (answer r s).pcm = s.pcm := rfl
@[simp] theorem answer_evt (r : Ret) : (answer r s).evt = s.evt := rfl
@[simp] theorem answer_ret (r : Ret) : (answer r s).ret = r := rfl
@[simp] theorem answer_inbox (r : Ret) : (answer r s).inbox = s.inbox := rfl
@[simp] theorem answer_fresh (r : Ret) : (answer r s).fresh = s.fresh := rfl
@[simp] theorem answer_hostSide (r : Ret) : (answer r s).hostSide = s.hostSide := rfl

/-! ## `draw` -/

@[simp] theorem draw_phase : (draw s).phase = s.phase := rfl
@[simp] theorem draw_result : (draw s).result = s.result := rfl
@[simp] theorem draw_volClamped : (draw s).volClamped = s.volClamped := rfl
@[simp] theorem draw_unsupSeen : (draw s).unsupSeen = s.unsupSeen := rfl
@[simp] theorem draw_baudCb : (draw s).baudCb = s.baudCb := rfl
@[simp] theorem draw_markHz : (draw s).markHz = s.markHz := rfl
@[simp] theorem draw_spaceHz : (draw s).spaceHz = s.spaceHz := rfl
@[simp] theorem draw_volPct : (draw s).volPct = s.volPct := rfl
@[simp] theorem draw_verbose : (draw s).verbose = s.verbose := rfl
@[simp] theorem draw_totalUnits : (draw s).totalUnits = s.totalUnits := rfl
@[simp] theorem draw_totalSamples : (draw s).totalSamples = s.totalSamples := rfl
@[simp] theorem draw_cfg : (draw s).cfg = s.cfg := rfl
@[simp] theorem draw_mode : (draw s).mode = s.mode := rfl
@[simp] theorem draw_theta : (draw s).theta = s.theta := rfl
@[simp] theorem draw_enc : (draw s).enc = s.enc := rfl
@[simp] theorem draw_syn : (draw s).syn = s.syn := rfl
@[simp] theorem draw_txt : (draw s).txt = s.txt := rfl
@[simp] theorem draw_bits : (draw s).bits = s.bits := rfl
@[simp] theorem draw_pcm : (draw s).pcm = s.pcm := rfl
@[simp] theorem draw_evt : (draw s).evt = s.evt := rfl
@[simp] theorem draw_ret : (draw s).ret = s.ret := rfl
@[simp] theorem draw_inbox : (draw s).inbox = s.inbox := rfl
@[simp] theorem draw_fresh : (draw s).fresh = s.fresh + 1 := rfl
@[simp] theorem draw_hostSide : (draw s).hostSide = s.hostSide := rfl

/-! ## `emitKey` -/

@[simp] theorem emitKey_phase (p : Impl) (k : Key) : (emitKey p k s).phase = s.phase := rfl
@[simp] theorem emitKey_result (p : Impl) (k : Key) : (emitKey p k s).result = s.result := rfl
@[simp] theorem emitKey_volClamped (p : Impl) (k : Key) : (emitKey p k s).volClamped = s.volClamped := rfl
@[simp] theorem emitKey_unsupSeen (p : Impl) (k : Key) : (emitKey p k s).unsupSeen = s.unsupSeen := rfl
@[simp] theorem emitKey_baudCb (p : Impl) (k : Key) : (emitKey p k s).baudCb = s.baudCb := rfl
@[simp] theorem emitKey_markHz (p : Impl) (k : Key) : (emitKey p k s).markHz = s.markHz := rfl
@[simp] theorem emitKey_spaceHz (p : Impl) (k : Key) : (emitKey p k s).spaceHz = s.spaceHz := rfl
@[simp] theorem emitKey_volPct (p : Impl) (k : Key) : (emitKey p k s).volPct = s.volPct := rfl
@[simp] theorem emitKey_verbose (p : Impl) (k : Key) : (emitKey p k s).verbose = s.verbose := rfl
@[simp] theorem emitKey_totalUnits (p : Impl) (k : Key) : (emitKey p k s).totalUnits = s.totalUnits := rfl
@[simp] theorem emitKey_totalSamples (p : Impl) (k : Key) : (emitKey p k s).totalSamples = s.totalSamples := rfl
@[simp] theorem emitKey_cfg (p : Impl) (k : Key) : (emitKey p k s).cfg = s.cfg := rfl
@[simp] theorem emitKey_mode (p : Impl) (k : Key) : (emitKey p k s).mode = s.mode := rfl
@[simp] theorem emitKey_theta (p : Impl) (k : Key) : (emitKey p k s).theta = s.theta := rfl
@[simp] theorem emitKey_enc (p : Impl) (k : Key) :
    (emitKey p k s).enc =
      { s.enc with unitCnt := s.enc.unitCnt + 8 } := rfl
@[simp] theorem emitKey_syn (p : Impl) (k : Key) : (emitKey p k s).syn = s.syn := rfl
@[simp] theorem emitKey_txt (p : Impl) (k : Key) : (emitKey p k s).txt = s.txt := rfl
@[simp] theorem emitKey_bits (p : Impl) (k : Key) : (emitKey p k s).bits = s.bits ++ frame (p.code k) := rfl
@[simp] theorem emitKey_pcm (p : Impl) (k : Key) : (emitKey p k s).pcm = s.pcm := rfl
@[simp] theorem emitKey_evt (p : Impl) (k : Key) : (emitKey p k s).evt = s.evt := rfl
@[simp] theorem emitKey_ret (p : Impl) (k : Key) : (emitKey p k s).ret = s.ret := rfl
@[simp] theorem emitKey_inbox (p : Impl) (k : Key) : (emitKey p k s).inbox = s.inbox := rfl
@[simp] theorem emitKey_fresh (p : Impl) (k : Key) : (emitKey p k s).fresh = s.fresh := rfl
@[simp] theorem emitKey_hostSide (p : Impl) (k : Key) : (emitKey p k s).hostSide = s.hostSide := rfl

/-! ## `emitMarker` -/

@[simp] theorem emitMarker_phase (p : Impl) (m : Mode) : (emitMarker p m s).phase = s.phase := rfl
@[simp] theorem emitMarker_result (p : Impl) (m : Mode) : (emitMarker p m s).result = s.result := rfl
@[simp] theorem emitMarker_volClamped (p : Impl) (m : Mode) : (emitMarker p m s).volClamped = s.volClamped := rfl
@[simp] theorem emitMarker_unsupSeen (p : Impl) (m : Mode) : (emitMarker p m s).unsupSeen = s.unsupSeen := rfl
@[simp] theorem emitMarker_baudCb (p : Impl) (m : Mode) : (emitMarker p m s).baudCb = s.baudCb := rfl
@[simp] theorem emitMarker_markHz (p : Impl) (m : Mode) : (emitMarker p m s).markHz = s.markHz := rfl
@[simp] theorem emitMarker_spaceHz (p : Impl) (m : Mode) : (emitMarker p m s).spaceHz = s.spaceHz := rfl
@[simp] theorem emitMarker_volPct (p : Impl) (m : Mode) : (emitMarker p m s).volPct = s.volPct := rfl
@[simp] theorem emitMarker_verbose (p : Impl) (m : Mode) : (emitMarker p m s).verbose = s.verbose := rfl
@[simp] theorem emitMarker_totalUnits (p : Impl) (m : Mode) : (emitMarker p m s).totalUnits = s.totalUnits := rfl
@[simp] theorem emitMarker_totalSamples (p : Impl) (m : Mode) : (emitMarker p m s).totalSamples = s.totalSamples := rfl
@[simp] theorem emitMarker_cfg (p : Impl) (m : Mode) : (emitMarker p m s).cfg = s.cfg := rfl
@[simp] theorem emitMarker_mode (p : Impl) (m : Mode) : (emitMarker p m s).mode = m := rfl
@[simp] theorem emitMarker_theta (p : Impl) (m : Mode) : (emitMarker p m s).theta = s.theta := rfl
@[simp] theorem emitMarker_enc (p : Impl) (m : Mode) :
    (emitMarker p m s).enc =
      { s.enc with unitCnt := s.enc.unitCnt + 8 } := rfl
@[simp] theorem emitMarker_syn (p : Impl) (m : Mode) : (emitMarker p m s).syn = s.syn := rfl
@[simp] theorem emitMarker_txt (p : Impl) (m : Mode) : (emitMarker p m s).txt = s.txt := rfl
@[simp] theorem emitMarker_bits (p : Impl) (m : Mode) :
    (emitMarker p m s).bits =
      s.bits ++ frame (p.code (.marker m)) := rfl
@[simp] theorem emitMarker_pcm (p : Impl) (m : Mode) : (emitMarker p m s).pcm = s.pcm := rfl
@[simp] theorem emitMarker_evt (p : Impl) (m : Mode) : (emitMarker p m s).evt = s.evt := rfl
@[simp] theorem emitMarker_ret (p : Impl) (m : Mode) : (emitMarker p m s).ret = s.ret := rfl
@[simp] theorem emitMarker_inbox (p : Impl) (m : Mode) : (emitMarker p m s).inbox = s.inbox := rfl
@[simp] theorem emitMarker_fresh (p : Impl) (m : Mode) : (emitMarker p m s).fresh = s.fresh := rfl
@[simp] theorem emitMarker_hostSide (p : Impl) (m : Mode) : (emitMarker p m s).hostSide = s.hostSide := rfl

/-! ## `readElem` -/

@[simp] theorem readElem_phase (c : Elem) : (readElem c s).phase = s.phase := rfl
@[simp] theorem readElem_result (c : Elem) : (readElem c s).result = s.result := rfl
@[simp] theorem readElem_volClamped (c : Elem) : (readElem c s).volClamped = s.volClamped := rfl
@[simp] theorem readElem_unsupSeen (c : Elem) : (readElem c s).unsupSeen = s.unsupSeen := rfl
@[simp] theorem readElem_baudCb (c : Elem) : (readElem c s).baudCb = s.baudCb := rfl
@[simp] theorem readElem_markHz (c : Elem) : (readElem c s).markHz = s.markHz := rfl
@[simp] theorem readElem_spaceHz (c : Elem) : (readElem c s).spaceHz = s.spaceHz := rfl
@[simp] theorem readElem_volPct (c : Elem) : (readElem c s).volPct = s.volPct := rfl
@[simp] theorem readElem_verbose (c : Elem) : (readElem c s).verbose = s.verbose := rfl
@[simp] theorem readElem_totalUnits (c : Elem) : (readElem c s).totalUnits = s.totalUnits := rfl
@[simp] theorem readElem_totalSamples (c : Elem) : (readElem c s).totalSamples = s.totalSamples := rfl
@[simp] theorem readElem_cfg (c : Elem) : (readElem c s).cfg = s.cfg := rfl
@[simp] theorem readElem_mode (c : Elem) : (readElem c s).mode = s.mode := rfl
@[simp] theorem readElem_theta (c : Elem) : (readElem c s).theta = s.theta := rfl
@[simp] theorem readElem_enc (c : Elem) : (readElem c s).enc = { s.enc with cur := upper c } := rfl
@[simp] theorem readElem_syn (c : Elem) : (readElem c s).syn = s.syn := rfl
@[simp] theorem readElem_txt (c : Elem) : (readElem c s).txt = s.txt := rfl
@[simp] theorem readElem_bits (c : Elem) : (readElem c s).bits = s.bits := rfl
@[simp] theorem readElem_pcm (c : Elem) : (readElem c s).pcm = s.pcm := rfl
@[simp] theorem readElem_evt (c : Elem) : (readElem c s).evt = s.evt := rfl
@[simp] theorem readElem_ret (c : Elem) : (readElem c s).ret = s.ret := rfl
@[simp] theorem readElem_inbox (c : Elem) : (readElem c s).inbox = s.inbox := rfl
@[simp] theorem readElem_fresh (c : Elem) : (readElem c s).fresh = s.fresh := rfl
@[simp] theorem readElem_hostSide (c : Elem) : (readElem c s).hostSide = s.hostSide := rfl

/-! ## `advanceText` -/

@[simp] theorem advanceText_phase : (advanceText s).phase = s.phase := rfl
@[simp] theorem advanceText_result : (advanceText s).result = s.result := rfl
@[simp] theorem advanceText_volClamped : (advanceText s).volClamped = s.volClamped := rfl
@[simp] theorem advanceText_unsupSeen : (advanceText s).unsupSeen = s.unsupSeen := rfl
@[simp] theorem advanceText_baudCb : (advanceText s).baudCb = s.baudCb := rfl
@[simp] theorem advanceText_markHz : (advanceText s).markHz = s.markHz := rfl
@[simp] theorem advanceText_spaceHz : (advanceText s).spaceHz = s.spaceHz := rfl
@[simp] theorem advanceText_volPct : (advanceText s).volPct = s.volPct := rfl
@[simp] theorem advanceText_verbose : (advanceText s).verbose = s.verbose := rfl
@[simp] theorem advanceText_totalUnits : (advanceText s).totalUnits = s.totalUnits := rfl
@[simp] theorem advanceText_totalSamples : (advanceText s).totalSamples = s.totalSamples := rfl
@[simp] theorem advanceText_cfg : (advanceText s).cfg = s.cfg := rfl
@[simp] theorem advanceText_mode : (advanceText s).mode = s.mode := rfl
@[simp] theorem advanceText_theta : (advanceText s).theta = s.theta := rfl
@[simp] theorem advanceText_enc : (advanceText s).enc = { s.enc with txtPos := s.enc.txtPos + 1 } := rfl
@[simp] theorem advanceText_syn : (advanceText s).syn = s.syn := rfl
@[simp] theorem advanceText_txt : (advanceText s).txt = s.txt := rfl
@[simp] theorem advanceText_bits : (advanceText s).bits = s.bits := rfl
@[simp] theorem advanceText_pcm : (advanceText s).pcm = s.pcm := rfl
@[simp] theorem advanceText_evt : (advanceText s).evt = s.evt := rfl
@[simp] theorem advanceText_ret : (advanceText s).ret = s.ret := rfl
@[simp] theorem advanceText_inbox : (advanceText s).inbox = s.inbox := rfl
@[simp] theorem advanceText_fresh : (advanceText s).fresh = s.fresh := rfl
@[simp] theorem advanceText_hostSide : (advanceText s).hostSide = s.hostSide := rfl

/-! ## `advanceUnit` -/

@[simp] theorem advanceUnit_phase : (advanceUnit s).phase = s.phase := rfl
@[simp] theorem advanceUnit_result : (advanceUnit s).result = s.result := rfl
@[simp] theorem advanceUnit_volClamped : (advanceUnit s).volClamped = s.volClamped := rfl
@[simp] theorem advanceUnit_unsupSeen : (advanceUnit s).unsupSeen = s.unsupSeen := rfl
@[simp] theorem advanceUnit_baudCb : (advanceUnit s).baudCb = s.baudCb := rfl
@[simp] theorem advanceUnit_markHz : (advanceUnit s).markHz = s.markHz := rfl
@[simp] theorem advanceUnit_spaceHz : (advanceUnit s).spaceHz = s.spaceHz := rfl
@[simp] theorem advanceUnit_volPct : (advanceUnit s).volPct = s.volPct := rfl
@[simp] theorem advanceUnit_verbose : (advanceUnit s).verbose = s.verbose := rfl
@[simp] theorem advanceUnit_totalUnits : (advanceUnit s).totalUnits = s.totalUnits := rfl
@[simp] theorem advanceUnit_totalSamples : (advanceUnit s).totalSamples = s.totalSamples := rfl
@[simp] theorem advanceUnit_cfg : (advanceUnit s).cfg = s.cfg := rfl
@[simp] theorem advanceUnit_mode : (advanceUnit s).mode = s.mode := rfl
@[simp] theorem advanceUnit_theta : (advanceUnit s).theta = s.theta := rfl
@[simp] theorem advanceUnit_enc : (advanceUnit s).enc = s.enc := rfl
@[simp] theorem advanceUnit_syn : (advanceUnit s).syn = { s.syn with unitPos := s.syn.unitPos + 1 } := rfl
@[simp] theorem advanceUnit_txt : (advanceUnit s).txt = s.txt := rfl
@[simp] theorem advanceUnit_bits : (advanceUnit s).bits = s.bits := rfl
@[simp] theorem advanceUnit_pcm : (advanceUnit s).pcm = s.pcm := rfl
@[simp] theorem advanceUnit_evt : (advanceUnit s).evt = s.evt := rfl
@[simp] theorem advanceUnit_ret : (advanceUnit s).ret = s.ret := rfl
@[simp] theorem advanceUnit_inbox : (advanceUnit s).inbox = s.inbox := rfl
@[simp] theorem advanceUnit_fresh : (advanceUnit s).fresh = s.fresh := rfl
@[simp] theorem advanceUnit_hostSide : (advanceUnit s).hostSide = s.hostSide := rfl

/-! ## `textEvent` -/

@[simp] theorem textEvent_phase (text : List Elem) : (textEvent text s).phase = s.phase := rfl
@[simp] theorem textEvent_result (text : List Elem) : (textEvent text s).result = s.result := rfl
@[simp] theorem textEvent_volClamped (text : List Elem) : (textEvent text s).volClamped = s.volClamped := rfl
@[simp] theorem textEvent_unsupSeen (text : List Elem) : (textEvent text s).unsupSeen = s.unsupSeen := rfl
@[simp] theorem textEvent_baudCb (text : List Elem) : (textEvent text s).baudCb = s.baudCb := rfl
@[simp] theorem textEvent_markHz (text : List Elem) : (textEvent text s).markHz = s.markHz := rfl
@[simp] theorem textEvent_spaceHz (text : List Elem) : (textEvent text s).spaceHz = s.spaceHz := rfl
@[simp] theorem textEvent_volPct (text : List Elem) : (textEvent text s).volPct = s.volPct := rfl
@[simp] theorem textEvent_verbose (text : List Elem) : (textEvent text s).verbose = s.verbose := rfl
@[simp] theorem textEvent_totalUnits (text : List Elem) : (textEvent text s).totalUnits = s.totalUnits := rfl
@[simp] theorem textEvent_totalSamples (text : List Elem) : (textEvent text s).totalSamples = s.totalSamples := rfl
@[simp] theorem textEvent_cfg (text : List Elem) : (textEvent text s).cfg = s.cfg := rfl
@[simp] theorem textEvent_mode (text : List Elem) : (textEvent text s).mode = s.mode := rfl
@[simp] theorem textEvent_theta (text : List Elem) : (textEvent text s).theta = s.theta := rfl
@[simp] theorem textEvent_enc (text : List Elem) : (textEvent text s).enc = s.enc := rfl
@[simp] theorem textEvent_syn (text : List Elem) : (textEvent text s).syn = s.syn := rfl
@[simp] theorem textEvent_txt (text : List Elem) : (textEvent text s).txt = s.txt := rfl
@[simp] theorem textEvent_bits (text : List Elem) : (textEvent text s).bits = s.bits := rfl
@[simp] theorem textEvent_pcm (text : List Elem) : (textEvent text s).pcm = s.pcm := rfl
@[simp] theorem textEvent_evt (text : List Elem) :
    (textEvent text s).evt =
      s.evt ++ [{ kind := .text, tag := .highlight, payload := .text text }] := rfl
@[simp] theorem textEvent_ret (text : List Elem) : (textEvent text s).ret = s.ret := rfl
@[simp] theorem textEvent_inbox (text : List Elem) : (textEvent text s).inbox = s.inbox := rfl
@[simp] theorem textEvent_fresh (text : List Elem) : (textEvent text s).fresh = s.fresh := rfl
@[simp] theorem textEvent_hostSide (text : List Elem) : (textEvent text s).hostSide = s.hostSide := rfl

/-! ## `encodeBegin` -/

@[simp] theorem encodeBegin_phase : (encodeBegin s).phase = s.phase := rfl
@[simp] theorem encodeBegin_result : (encodeBegin s).result = s.result := rfl
@[simp] theorem encodeBegin_volClamped : (encodeBegin s).volClamped = s.volClamped := rfl
@[simp] theorem encodeBegin_unsupSeen : (encodeBegin s).unsupSeen = s.unsupSeen := rfl
@[simp] theorem encodeBegin_baudCb : (encodeBegin s).baudCb = s.baudCb := rfl
@[simp] theorem encodeBegin_markHz : (encodeBegin s).markHz = s.markHz := rfl
@[simp] theorem encodeBegin_spaceHz : (encodeBegin s).spaceHz = s.spaceHz := rfl
@[simp] theorem encodeBegin_volPct : (encodeBegin s).volPct = s.volPct := rfl
@[simp] theorem encodeBegin_verbose : (encodeBegin s).verbose = s.verbose := rfl
@[simp] theorem encodeBegin_totalUnits : (encodeBegin s).totalUnits = s.totalUnits := rfl
@[simp] theorem encodeBegin_totalSamples : (encodeBegin s).totalSamples = s.totalSamples := rfl
@[simp] theorem encodeBegin_cfg : (encodeBegin s).cfg = s.cfg := rfl
@[simp] theorem encodeBegin_mode : (encodeBegin s).mode = .lat := rfl
@[simp] theorem encodeBegin_theta : (encodeBegin s).theta = s.theta := rfl
@[simp] theorem encodeBegin_enc : (encodeBegin s).enc = { s.enc with txtPos := 0, unitCnt := 0 } := rfl
@[simp] theorem encodeBegin_syn : (encodeBegin s).syn = s.syn := rfl
@[simp] theorem encodeBegin_txt : (encodeBegin s).txt = s.txt := rfl
@[simp] theorem encodeBegin_bits : (encodeBegin s).bits = s.bits := rfl
@[simp] theorem encodeBegin_pcm : (encodeBegin s).pcm = s.pcm := rfl
@[simp] theorem encodeBegin_evt :
    (encodeBegin s).evt =
      s.evt ++ [{ kind := .encBegin, tag := .info, payload := .none }] := rfl
@[simp] theorem encodeBegin_ret : (encodeBegin s).ret = s.ret := rfl
@[simp] theorem encodeBegin_inbox : (encodeBegin s).inbox = s.inbox := rfl
@[simp] theorem encodeBegin_fresh : (encodeBegin s).fresh = s.fresh := rfl
@[simp] theorem encodeBegin_hostSide : (encodeBegin s).hostSide = s.hostSide := rfl

/-! ## `encodeFinish` -/

@[simp] theorem encodeFinish_phase : (encodeFinish s).phase = s.phase := rfl
@[simp] theorem encodeFinish_result : (encodeFinish s).result = s.result := rfl
@[simp] theorem encodeFinish_volClamped : (encodeFinish s).volClamped = s.volClamped := rfl
@[simp] theorem encodeFinish_unsupSeen : (encodeFinish s).unsupSeen = s.unsupSeen := rfl
@[simp] theorem encodeFinish_baudCb : (encodeFinish s).baudCb = s.baudCb := rfl
@[simp] theorem encodeFinish_markHz : (encodeFinish s).markHz = s.markHz := rfl
@[simp] theorem encodeFinish_spaceHz : (encodeFinish s).spaceHz = s.spaceHz := rfl
@[simp] theorem encodeFinish_volPct : (encodeFinish s).volPct = s.volPct := rfl
@[simp] theorem encodeFinish_verbose : (encodeFinish s).verbose = s.verbose := rfl
@[simp] theorem encodeFinish_totalUnits : (encodeFinish s).totalUnits = s.enc.unitCnt := rfl
@[simp] theorem encodeFinish_totalSamples : (encodeFinish s).totalSamples = s.totalSamples := rfl
@[simp] theorem encodeFinish_cfg : (encodeFinish s).cfg = s.cfg := rfl
@[simp] theorem encodeFinish_mode : (encodeFinish s).mode = s.mode := rfl
@[simp] theorem encodeFinish_theta : (encodeFinish s).theta = s.theta := rfl
@[simp] theorem encodeFinish_enc : (encodeFinish s).enc = Config.freeEnc s.fresh := rfl
@[simp] theorem encodeFinish_syn : (encodeFinish s).syn = s.syn := rfl
@[simp] theorem encodeFinish_txt : (encodeFinish s).txt = s.txt := rfl
@[simp] theorem encodeFinish_bits : (encodeFinish s).bits = s.bits := rfl
@[simp] theorem encodeFinish_pcm : (encodeFinish s).pcm = s.pcm := rfl
@[simp] theorem encodeFinish_evt :
    (encodeFinish s).evt =
      s.evt ++ [{ kind := .encSummary, tag := .info, payload := .count s.enc.unitCnt }] := rfl
@[simp] theorem encodeFinish_ret : (encodeFinish s).ret = s.ret := rfl
@[simp] theorem encodeFinish_inbox : (encodeFinish s).inbox = s.inbox := rfl
@[simp] theorem encodeFinish_fresh : (encodeFinish s).fresh = s.fresh + 1 := rfl
@[simp] theorem encodeFinish_hostSide : (encodeFinish s).hostSide = s.hostSide := rfl

/-! ## `runSegment` -/

@[simp] theorem runSegment_phase (p : Impl) (f : BitVec 16) (d : Rat) : (runSegment p f d s).phase = s.phase := rfl
@[simp] theorem runSegment_result (p : Impl) (f : BitVec 16) (d : Rat) : (runSegment p f d s).result = s.result := rfl
@[simp] theorem runSegment_volClamped (p : Impl) (f : BitVec 16) (d : Rat) :
    (runSegment p f d s).volClamped =
      s.volClamped := rfl
@[simp] theorem runSegment_unsupSeen (p : Impl) (f : BitVec 16) (d : Rat) :
    (runSegment p f d s).unsupSeen =
      s.unsupSeen := rfl
@[simp] theorem runSegment_baudCb (p : Impl) (f : BitVec 16) (d : Rat) : (runSegment p f d s).baudCb = s.baudCb := rfl
@[simp] theorem runSegment_markHz (p : Impl) (f : BitVec 16) (d : Rat) : (runSegment p f d s).markHz = s.markHz := rfl
@[simp] theorem runSegment_spaceHz (p : Impl) (f : BitVec 16) (d : Rat) :
    (runSegment p f d s).spaceHz =
      s.spaceHz := rfl
@[simp] theorem runSegment_volPct (p : Impl) (f : BitVec 16) (d : Rat) : (runSegment p f d s).volPct = s.volPct := rfl
@[simp] theorem runSegment_verbose (p : Impl) (f : BitVec 16) (d : Rat) :
    (runSegment p f d s).verbose =
      s.verbose := rfl
@[simp] theorem runSegment_totalUnits (p : Impl) (f : BitVec 16) (d : Rat) :
    (runSegment p f d s).totalUnits =
      s.totalUnits := rfl
@[simp] theorem runSegment_totalSamples (p : Impl) (f : BitVec 16) (d : Rat) :
    (runSegment p f d s).totalSamples =
      s.totalSamples := rfl
@[simp] theorem runSegment_cfg (p : Impl) (f : BitVec 16) (d : Rat) : (runSegment p f d s).cfg = s.cfg := rfl
@[simp] theorem runSegment_mode (p : Impl) (f : BitVec 16) (d : Rat) : (runSegment p f d s).mode = s.mode := rfl
@[simp] theorem runSegment_theta (p : Impl) (f : BitVec 16) (d : Rat) :
    (runSegment p f d s).theta =
      frac (s.theta + f.toNat * d) := rfl
@[simp] theorem runSegment_enc (p : Impl) (f : BitVec 16) (d : Rat) : (runSegment p f d s).enc = s.enc := rfl
@[simp] theorem runSegment_syn (p : Impl) (f : BitVec 16) (d : Rat) :
    (runSegment p f d s).syn =
      { s.syn with segF := f, segN := sampleCount p d, segI := if sampleCount p d = 0 then s.syn.segI else sampleCount p d - 1, sampleCnt := s.syn.sampleCnt + sampleCount p d } := rfl
@[simp] theorem runSegment_txt (p : Impl) (f : BitVec 16) (d : Rat) : (runSegment p f d s).txt = s.txt := rfl
@[simp] theorem runSegment_bits (p : Impl) (f : BitVec 16) (d : Rat) : (runSegment p f d s).bits = s.bits := rfl
@[simp] theorem runSegment_pcm (p : Impl) (f : BitVec 16) (d : Rat) :
    (runSegment p f d s).pcm =
      s.pcm ++ segmentSamples p s.theta f (sampleCount p d) s.syn.v := rfl
@[simp] theorem runSegment_evt (p : Impl) (f : BitVec 16) (d : Rat) : (runSegment p f d s).evt = s.evt := rfl
@[simp] theorem runSegment_ret (p : Impl) (f : BitVec 16) (d : Rat) : (runSegment p f d s).ret = s.ret := rfl
@[simp] theorem runSegment_inbox (p : Impl) (f : BitVec 16) (d : Rat) : (runSegment p f d s).inbox = s.inbox := rfl
@[simp] theorem runSegment_fresh (p : Impl) (f : BitVec 16) (d : Rat) : (runSegment p f d s).fresh = s.fresh := rfl
@[simp] theorem runSegment_hostSide (p : Impl) (f : BitVec 16) (d : Rat) :
    (runSegment p f d s).hostSide =
      s.hostSide := rfl

/-! ## `synthesizeFinish` -/

@[simp] theorem synthesizeFinish_phase : (synthesizeFinish s).phase = s.phase := rfl
@[simp] theorem synthesizeFinish_result : (synthesizeFinish s).result = .ok := rfl
@[simp] theorem synthesizeFinish_volClamped : (synthesizeFinish s).volClamped = s.volClamped := rfl
@[simp] theorem synthesizeFinish_unsupSeen : (synthesizeFinish s).unsupSeen = s.unsupSeen := rfl
@[simp] theorem synthesizeFinish_baudCb : (synthesizeFinish s).baudCb = s.baudCb := rfl
@[simp] theorem synthesizeFinish_markHz : (synthesizeFinish s).markHz = s.markHz := rfl
@[simp] theorem synthesizeFinish_spaceHz : (synthesizeFinish s).spaceHz = s.spaceHz := rfl
@[simp] theorem synthesizeFinish_volPct : (synthesizeFinish s).volPct = s.volPct := rfl
@[simp] theorem synthesizeFinish_verbose : (synthesizeFinish s).verbose = s.verbose := rfl
@[simp] theorem synthesizeFinish_totalUnits : (synthesizeFinish s).totalUnits = s.totalUnits := rfl
@[simp] theorem synthesizeFinish_totalSamples : (synthesizeFinish s).totalSamples = s.syn.sampleCnt := rfl
@[simp] theorem synthesizeFinish_cfg : (synthesizeFinish s).cfg = s.cfg := rfl
@[simp] theorem synthesizeFinish_mode : (synthesizeFinish s).mode = s.mode := rfl
@[simp] theorem synthesizeFinish_theta : (synthesizeFinish s).theta = s.theta := rfl
@[simp] theorem synthesizeFinish_enc : (synthesizeFinish s).enc = s.enc := rfl
@[simp] theorem synthesizeFinish_syn : (synthesizeFinish s).syn = Config.freeSyn s.fresh := rfl
@[simp] theorem synthesizeFinish_txt : (synthesizeFinish s).txt = s.txt := rfl
@[simp] theorem synthesizeFinish_bits : (synthesizeFinish s).bits = s.bits := rfl
@[simp] theorem synthesizeFinish_pcm : (synthesizeFinish s).pcm = s.pcm := rfl
@[simp] theorem synthesizeFinish_evt : (synthesizeFinish s).evt = s.evt := rfl
@[simp] theorem synthesizeFinish_ret : (synthesizeFinish s).ret = s.ret := rfl
@[simp] theorem synthesizeFinish_inbox : (synthesizeFinish s).inbox = s.inbox := rfl
@[simp] theorem synthesizeFinish_fresh : (synthesizeFinish s).fresh = s.fresh + 1 := rfl
@[simp] theorem synthesizeFinish_hostSide : (synthesizeFinish s).hostSide = s.hostSide := rfl

/-! ## `openSession` -/

@[simp] theorem openSession_phase : (openSession s).phase = s.phase := rfl
@[simp] theorem openSession_result : (openSession s).result = .none := rfl
@[simp] theorem openSession_volClamped : (openSession s).volClamped = false := rfl
@[simp] theorem openSession_unsupSeen : (openSession s).unsupSeen = false := rfl
@[simp] theorem openSession_baudCb : (openSession s).baudCb = s.baudCb := rfl
@[simp] theorem openSession_markHz : (openSession s).markHz = s.markHz := rfl
@[simp] theorem openSession_spaceHz : (openSession s).spaceHz = s.spaceHz := rfl
@[simp] theorem openSession_volPct : (openSession s).volPct = s.volPct := rfl
@[simp] theorem openSession_verbose : (openSession s).verbose = s.verbose := rfl
@[simp] theorem openSession_totalUnits : (openSession s).totalUnits = 0 := rfl
@[simp] theorem openSession_totalSamples : (openSession s).totalSamples = 0 := rfl
@[simp] theorem openSession_cfg :
    (openSession s).cfg =
      { params := { baudCb := s.baudCb, markHz := s.markHz, spaceHz := s.spaceHz, volPct := s.volPct }, verbose := s.verbose } := rfl
@[simp] theorem openSession_mode : (openSession s).mode = s.mode := rfl
@[simp] theorem openSession_theta : (openSession s).theta = s.theta := rfl
@[simp] theorem openSession_enc : (openSession s).enc = s.enc := rfl
@[simp] theorem openSession_syn : (openSession s).syn = s.syn := rfl
@[simp] theorem openSession_txt : (openSession s).txt = s.txt := rfl
@[simp] theorem openSession_bits : (openSession s).bits = [] := rfl
@[simp] theorem openSession_pcm : (openSession s).pcm = [] := rfl
@[simp] theorem openSession_evt : (openSession s).evt = s.evt := rfl
@[simp] theorem openSession_ret : (openSession s).ret = s.ret := rfl
@[simp] theorem openSession_inbox : (openSession s).inbox = s.inbox := rfl
@[simp] theorem openSession_fresh : (openSession s).fresh = s.fresh := rfl
@[simp] theorem openSession_hostSide : (openSession s).hostSide = s.hostSide := rfl

/-! ## `onHost` -/

@[simp] theorem onHost_phase (f : HostSide → HostSide) : (onHost f s).phase = s.phase := rfl
@[simp] theorem onHost_result (f : HostSide → HostSide) : (onHost f s).result = s.result := rfl
@[simp] theorem onHost_volClamped (f : HostSide → HostSide) : (onHost f s).volClamped = s.volClamped := rfl
@[simp] theorem onHost_unsupSeen (f : HostSide → HostSide) : (onHost f s).unsupSeen = s.unsupSeen := rfl
@[simp] theorem onHost_baudCb (f : HostSide → HostSide) : (onHost f s).baudCb = s.baudCb := rfl
@[simp] theorem onHost_markHz (f : HostSide → HostSide) : (onHost f s).markHz = s.markHz := rfl
@[simp] theorem onHost_spaceHz (f : HostSide → HostSide) : (onHost f s).spaceHz = s.spaceHz := rfl
@[simp] theorem onHost_volPct (f : HostSide → HostSide) : (onHost f s).volPct = s.volPct := rfl
@[simp] theorem onHost_verbose (f : HostSide → HostSide) : (onHost f s).verbose = s.verbose := rfl
@[simp] theorem onHost_totalUnits (f : HostSide → HostSide) : (onHost f s).totalUnits = s.totalUnits := rfl
@[simp] theorem onHost_totalSamples (f : HostSide → HostSide) : (onHost f s).totalSamples = s.totalSamples := rfl
@[simp] theorem onHost_cfg (f : HostSide → HostSide) : (onHost f s).cfg = s.cfg := rfl
@[simp] theorem onHost_mode (f : HostSide → HostSide) : (onHost f s).mode = s.mode := rfl
@[simp] theorem onHost_theta (f : HostSide → HostSide) : (onHost f s).theta = s.theta := rfl
@[simp] theorem onHost_enc (f : HostSide → HostSide) : (onHost f s).enc = s.enc := rfl
@[simp] theorem onHost_syn (f : HostSide → HostSide) : (onHost f s).syn = s.syn := rfl
@[simp] theorem onHost_txt (f : HostSide → HostSide) : (onHost f s).txt = s.txt := rfl
@[simp] theorem onHost_bits (f : HostSide → HostSide) : (onHost f s).bits = s.bits := rfl
@[simp] theorem onHost_pcm (f : HostSide → HostSide) : (onHost f s).pcm = s.pcm := rfl
@[simp] theorem onHost_evt (f : HostSide → HostSide) : (onHost f s).evt = s.evt := rfl
@[simp] theorem onHost_ret (f : HostSide → HostSide) : (onHost f s).ret = s.ret := rfl
@[simp] theorem onHost_inbox (f : HostSide → HostSide) : (onHost f s).inbox = s.inbox := rfl
@[simp] theorem onHost_fresh (f : HostSide → HostSide) : (onHost f s).fresh = s.fresh := rfl
@[simp] theorem onHost_hostSide (f : HostSide → HostSide) : (onHost f s).hostSide = f s.hostSide := rfl

/-! ## `goTo` -/

@[simp] theorem goTo_phase (ph : Phase) : (goTo ph s).phase = ph := rfl
@[simp] theorem goTo_result (ph : Phase) : (goTo ph s).result = s.result := rfl
@[simp] theorem goTo_volClamped (ph : Phase) : (goTo ph s).volClamped = s.volClamped := rfl
@[simp] theorem goTo_unsupSeen (ph : Phase) : (goTo ph s).unsupSeen = s.unsupSeen := rfl
@[simp] theorem goTo_baudCb (ph : Phase) : (goTo ph s).baudCb = s.baudCb := rfl
@[simp] theorem goTo_markHz (ph : Phase) : (goTo ph s).markHz = s.markHz := rfl
@[simp] theorem goTo_spaceHz (ph : Phase) : (goTo ph s).spaceHz = s.spaceHz := rfl
@[simp] theorem goTo_volPct (ph : Phase) : (goTo ph s).volPct = s.volPct := rfl
@[simp] theorem goTo_verbose (ph : Phase) : (goTo ph s).verbose = s.verbose := rfl
@[simp] theorem goTo_totalUnits (ph : Phase) : (goTo ph s).totalUnits = s.totalUnits := rfl
@[simp] theorem goTo_totalSamples (ph : Phase) : (goTo ph s).totalSamples = s.totalSamples := rfl
@[simp] theorem goTo_cfg (ph : Phase) : (goTo ph s).cfg = s.cfg := rfl
@[simp] theorem goTo_mode (ph : Phase) : (goTo ph s).mode = s.mode := rfl
@[simp] theorem goTo_theta (ph : Phase) : (goTo ph s).theta = s.theta := rfl
@[simp] theorem goTo_enc (ph : Phase) : (goTo ph s).enc = s.enc := rfl
@[simp] theorem goTo_syn (ph : Phase) : (goTo ph s).syn = s.syn := rfl
@[simp] theorem goTo_txt (ph : Phase) : (goTo ph s).txt = s.txt := rfl
@[simp] theorem goTo_bits (ph : Phase) : (goTo ph s).bits = s.bits := rfl
@[simp] theorem goTo_pcm (ph : Phase) : (goTo ph s).pcm = s.pcm := rfl
@[simp] theorem goTo_evt (ph : Phase) : (goTo ph s).evt = s.evt := rfl
@[simp] theorem goTo_ret (ph : Phase) : (goTo ph s).ret = s.ret := rfl
@[simp] theorem goTo_inbox (ph : Phase) : (goTo ph s).inbox = s.inbox := rfl
@[simp] theorem goTo_fresh (ph : Phase) : (goTo ph s).fresh = s.fresh := rfl
@[simp] theorem goTo_hostSide (ph : Phase) : (goTo ph s).hostSide = s.hostSide := rfl

/-! ## Taking an error -/

@[simp] theorem raise_baudCb (e : ErrorKind) : (raise e s).baudCb = s.baudCb := by cases e <;> rfl
@[simp] theorem raise_markHz (e : ErrorKind) : (raise e s).markHz = s.markHz := by cases e <;> rfl
@[simp] theorem raise_spaceHz (e : ErrorKind) : (raise e s).spaceHz = s.spaceHz := by cases e <;> rfl
@[simp] theorem raise_volPct (e : ErrorKind) : (raise e s).volPct = s.volPct := by cases e <;> rfl
@[simp] theorem raise_verbose (e : ErrorKind) : (raise e s).verbose = s.verbose := by cases e <;> rfl
@[simp] theorem raise_totalUnits (e : ErrorKind) : (raise e s).totalUnits = s.totalUnits := by cases e <;> rfl
@[simp] theorem raise_totalSamples (e : ErrorKind) : (raise e s).totalSamples = s.totalSamples := by cases e <;> rfl
@[simp] theorem raise_cfg (e : ErrorKind) : (raise e s).cfg = s.cfg := by cases e <;> rfl
@[simp] theorem raise_mode (e : ErrorKind) : (raise e s).mode = s.mode := by cases e <;> rfl
@[simp] theorem raise_theta (e : ErrorKind) : (raise e s).theta = s.theta := by cases e <;> rfl
@[simp] theorem raise_enc (e : ErrorKind) : (raise e s).enc = s.enc := by cases e <;> rfl
@[simp] theorem raise_syn (e : ErrorKind) : (raise e s).syn = s.syn := by cases e <;> rfl
@[simp] theorem raise_txt (e : ErrorKind) : (raise e s).txt = s.txt := by cases e <;> rfl
@[simp] theorem raise_bits (e : ErrorKind) : (raise e s).bits = s.bits := by cases e <;> rfl
@[simp] theorem raise_pcm (e : ErrorKind) : (raise e s).pcm = s.pcm := by cases e <;> rfl
@[simp] theorem raise_ret (e : ErrorKind) : (raise e s).ret = s.ret := by cases e <;> rfl
@[simp] theorem raise_inbox (e : ErrorKind) : (raise e s).inbox = s.inbox := by cases e <;> rfl
@[simp] theorem raise_fresh (e : ErrorKind) : (raise e s).fresh = s.fresh := by cases e <;> rfl
@[simp] theorem raise_hostSide (e : ErrorKind) : (raise e s).hostSide = s.hostSide := by cases e <;> rfl

/-- The event of an error (R300). -/
@[simp] theorem raise_evt (e : ErrorKind) :
    (raise e s).evt = s.evt ++ [eventOf (errorKindOf e) (errorPayload e)] := by cases e <;> rfl

/-! ## The mode test and the verbose event -/

@[simp] theorem enterClass_phase (p : Impl) (cls : SymClass) : (enterClass p cls s).phase = s.phase := by
  unfold enterClass; split <;> (try split) <;> rfl
@[simp] theorem enterClass_result (p : Impl) (cls : SymClass) : (enterClass p cls s).result = s.result := by
  unfold enterClass; split <;> (try split) <;> rfl
@[simp] theorem enterClass_volClamped (p : Impl) (cls : SymClass) : (enterClass p cls s).volClamped = s.volClamped := by
  unfold enterClass; split <;> (try split) <;> rfl
@[simp] theorem enterClass_unsupSeen (p : Impl) (cls : SymClass) : (enterClass p cls s).unsupSeen = s.unsupSeen := by
  unfold enterClass; split <;> (try split) <;> rfl
@[simp] theorem enterClass_baudCb (p : Impl) (cls : SymClass) : (enterClass p cls s).baudCb = s.baudCb := by
  unfold enterClass; split <;> (try split) <;> rfl
@[simp] theorem enterClass_markHz (p : Impl) (cls : SymClass) : (enterClass p cls s).markHz = s.markHz := by
  unfold enterClass; split <;> (try split) <;> rfl
@[simp] theorem enterClass_spaceHz (p : Impl) (cls : SymClass) : (enterClass p cls s).spaceHz = s.spaceHz := by
  unfold enterClass; split <;> (try split) <;> rfl
@[simp] theorem enterClass_volPct (p : Impl) (cls : SymClass) : (enterClass p cls s).volPct = s.volPct := by
  unfold enterClass; split <;> (try split) <;> rfl
@[simp] theorem enterClass_verbose (p : Impl) (cls : SymClass) : (enterClass p cls s).verbose = s.verbose := by
  unfold enterClass; split <;> (try split) <;> rfl
@[simp] theorem enterClass_totalUnits (p : Impl) (cls : SymClass) : (enterClass p cls s).totalUnits = s.totalUnits := by
  unfold enterClass; split <;> (try split) <;> rfl
@[simp] theorem enterClass_totalSamples (p : Impl) (cls : SymClass) : (enterClass p cls s).totalSamples = s.totalSamples := by
  unfold enterClass; split <;> (try split) <;> rfl
@[simp] theorem enterClass_cfg (p : Impl) (cls : SymClass) : (enterClass p cls s).cfg = s.cfg := by
  unfold enterClass; split <;> (try split) <;> rfl
@[simp] theorem enterClass_theta (p : Impl) (cls : SymClass) : (enterClass p cls s).theta = s.theta := by
  unfold enterClass; split <;> (try split) <;> rfl
@[simp] theorem enterClass_syn (p : Impl) (cls : SymClass) : (enterClass p cls s).syn = s.syn := by
  unfold enterClass; split <;> (try split) <;> rfl
@[simp] theorem enterClass_txt (p : Impl) (cls : SymClass) : (enterClass p cls s).txt = s.txt := by
  unfold enterClass; split <;> (try split) <;> rfl
@[simp] theorem enterClass_pcm (p : Impl) (cls : SymClass) : (enterClass p cls s).pcm = s.pcm := by
  unfold enterClass; split <;> (try split) <;> rfl
@[simp] theorem enterClass_evt (p : Impl) (cls : SymClass) : (enterClass p cls s).evt = s.evt := by
  unfold enterClass; split <;> (try split) <;> rfl
@[simp] theorem enterClass_ret (p : Impl) (cls : SymClass) : (enterClass p cls s).ret = s.ret := by
  unfold enterClass; split <;> (try split) <;> rfl
@[simp] theorem enterClass_inbox (p : Impl) (cls : SymClass) : (enterClass p cls s).inbox = s.inbox := by
  unfold enterClass; split <;> (try split) <;> rfl
@[simp] theorem enterClass_fresh (p : Impl) (cls : SymClass) : (enterClass p cls s).fresh = s.fresh := by
  unfold enterClass; split <;> (try split) <;> rfl
@[simp] theorem enterClass_hostSide (p : Impl) (cls : SymClass) : (enterClass p cls s).hostSide = s.hostSide := by
  unfold enterClass; split <;> (try split) <;> rfl
@[simp] theorem verboseEvent_phase (p : Impl) (v : Bool) (c : Elem) : (verboseEvent p v c s).phase = s.phase := by
  unfold verboseEvent; split <;> rfl
@[simp] theorem verboseEvent_result (p : Impl) (v : Bool) (c : Elem) : (verboseEvent p v c s).result = s.result := by
  unfold verboseEvent; split <;> rfl
@[simp] theorem verboseEvent_volClamped (p : Impl) (v : Bool) (c : Elem) : (verboseEvent p v c s).volClamped = s.volClamped := by
  unfold verboseEvent; split <;> rfl
@[simp] theorem verboseEvent_unsupSeen (p : Impl) (v : Bool) (c : Elem) : (verboseEvent p v c s).unsupSeen = s.unsupSeen := by
  unfold verboseEvent; split <;> rfl
@[simp] theorem verboseEvent_baudCb (p : Impl) (v : Bool) (c : Elem) : (verboseEvent p v c s).baudCb = s.baudCb := by
  unfold verboseEvent; split <;> rfl
@[simp] theorem verboseEvent_markHz (p : Impl) (v : Bool) (c : Elem) : (verboseEvent p v c s).markHz = s.markHz := by
  unfold verboseEvent; split <;> rfl
@[simp] theorem verboseEvent_spaceHz (p : Impl) (v : Bool) (c : Elem) : (verboseEvent p v c s).spaceHz = s.spaceHz := by
  unfold verboseEvent; split <;> rfl
@[simp] theorem verboseEvent_volPct (p : Impl) (v : Bool) (c : Elem) : (verboseEvent p v c s).volPct = s.volPct := by
  unfold verboseEvent; split <;> rfl
@[simp] theorem verboseEvent_verbose (p : Impl) (v : Bool) (c : Elem) : (verboseEvent p v c s).verbose = s.verbose := by
  unfold verboseEvent; split <;> rfl
@[simp] theorem verboseEvent_totalUnits (p : Impl) (v : Bool) (c : Elem) : (verboseEvent p v c s).totalUnits = s.totalUnits := by
  unfold verboseEvent; split <;> rfl
@[simp] theorem verboseEvent_totalSamples (p : Impl) (v : Bool) (c : Elem) : (verboseEvent p v c s).totalSamples = s.totalSamples := by
  unfold verboseEvent; split <;> rfl
@[simp] theorem verboseEvent_cfg (p : Impl) (v : Bool) (c : Elem) : (verboseEvent p v c s).cfg = s.cfg := by
  unfold verboseEvent; split <;> rfl
@[simp] theorem verboseEvent_mode (p : Impl) (v : Bool) (c : Elem) : (verboseEvent p v c s).mode = s.mode := by
  unfold verboseEvent; split <;> rfl
@[simp] theorem verboseEvent_theta (p : Impl) (v : Bool) (c : Elem) : (verboseEvent p v c s).theta = s.theta := by
  unfold verboseEvent; split <;> rfl
@[simp] theorem verboseEvent_enc (p : Impl) (v : Bool) (c : Elem) : (verboseEvent p v c s).enc = s.enc := by
  unfold verboseEvent; split <;> rfl
@[simp] theorem verboseEvent_syn (p : Impl) (v : Bool) (c : Elem) : (verboseEvent p v c s).syn = s.syn := by
  unfold verboseEvent; split <;> rfl
@[simp] theorem verboseEvent_txt (p : Impl) (v : Bool) (c : Elem) : (verboseEvent p v c s).txt = s.txt := by
  unfold verboseEvent; split <;> rfl
@[simp] theorem verboseEvent_bits (p : Impl) (v : Bool) (c : Elem) : (verboseEvent p v c s).bits = s.bits := by
  unfold verboseEvent; split <;> rfl
@[simp] theorem verboseEvent_pcm (p : Impl) (v : Bool) (c : Elem) : (verboseEvent p v c s).pcm = s.pcm := by
  unfold verboseEvent; split <;> rfl
@[simp] theorem verboseEvent_ret (p : Impl) (v : Bool) (c : Elem) : (verboseEvent p v c s).ret = s.ret := by
  unfold verboseEvent; split <;> rfl
@[simp] theorem verboseEvent_inbox (p : Impl) (v : Bool) (c : Elem) : (verboseEvent p v c s).inbox = s.inbox := by
  unfold verboseEvent; split <;> rfl
@[simp] theorem verboseEvent_fresh (p : Impl) (v : Bool) (c : Elem) : (verboseEvent p v c s).fresh = s.fresh := by
  unfold verboseEvent; split <;> rfl
@[simp] theorem verboseEvent_hostSide (p : Impl) (v : Bool) (c : Elem) : (verboseEvent p v c s).hostSide = s.hostSide := by
  unfold verboseEvent; split <;> rfl
@[simp] theorem encodeSymbol_phase (p : Impl) (c : Elem) (cls : SymClass) (v : Bool) :
    (encodeSymbol p c cls v s).phase = s.phase := by simp [encodeSymbol]
@[simp] theorem encodeSymbol_result (p : Impl) (c : Elem) (cls : SymClass) (v : Bool) :
    (encodeSymbol p c cls v s).result = s.result := by simp [encodeSymbol]
@[simp] theorem encodeSymbol_volClamped (p : Impl) (c : Elem) (cls : SymClass) (v : Bool) :
    (encodeSymbol p c cls v s).volClamped = s.volClamped := by simp [encodeSymbol]
@[simp] theorem encodeSymbol_unsupSeen (p : Impl) (c : Elem) (cls : SymClass) (v : Bool) :
    (encodeSymbol p c cls v s).unsupSeen = s.unsupSeen := by simp [encodeSymbol]
@[simp] theorem encodeSymbol_baudCb (p : Impl) (c : Elem) (cls : SymClass) (v : Bool) :
    (encodeSymbol p c cls v s).baudCb = s.baudCb := by simp [encodeSymbol]
@[simp] theorem encodeSymbol_markHz (p : Impl) (c : Elem) (cls : SymClass) (v : Bool) :
    (encodeSymbol p c cls v s).markHz = s.markHz := by simp [encodeSymbol]
@[simp] theorem encodeSymbol_spaceHz (p : Impl) (c : Elem) (cls : SymClass) (v : Bool) :
    (encodeSymbol p c cls v s).spaceHz = s.spaceHz := by simp [encodeSymbol]
@[simp] theorem encodeSymbol_volPct (p : Impl) (c : Elem) (cls : SymClass) (v : Bool) :
    (encodeSymbol p c cls v s).volPct = s.volPct := by simp [encodeSymbol]
@[simp] theorem encodeSymbol_verbose (p : Impl) (c : Elem) (cls : SymClass) (v : Bool) :
    (encodeSymbol p c cls v s).verbose = s.verbose := by simp [encodeSymbol]
@[simp] theorem encodeSymbol_totalUnits (p : Impl) (c : Elem) (cls : SymClass) (v : Bool) :
    (encodeSymbol p c cls v s).totalUnits = s.totalUnits := by simp [encodeSymbol]
@[simp] theorem encodeSymbol_totalSamples (p : Impl) (c : Elem) (cls : SymClass) (v : Bool) :
    (encodeSymbol p c cls v s).totalSamples = s.totalSamples := by simp [encodeSymbol]
@[simp] theorem encodeSymbol_cfg (p : Impl) (c : Elem) (cls : SymClass) (v : Bool) :
    (encodeSymbol p c cls v s).cfg = s.cfg := by simp [encodeSymbol]
@[simp] theorem encodeSymbol_theta (p : Impl) (c : Elem) (cls : SymClass) (v : Bool) :
    (encodeSymbol p c cls v s).theta = s.theta := by simp [encodeSymbol]
@[simp] theorem encodeSymbol_syn (p : Impl) (c : Elem) (cls : SymClass) (v : Bool) :
    (encodeSymbol p c cls v s).syn = s.syn := by simp [encodeSymbol]
@[simp] theorem encodeSymbol_txt (p : Impl) (c : Elem) (cls : SymClass) (v : Bool) :
    (encodeSymbol p c cls v s).txt = s.txt := by simp [encodeSymbol]
@[simp] theorem encodeSymbol_pcm (p : Impl) (c : Elem) (cls : SymClass) (v : Bool) :
    (encodeSymbol p c cls v s).pcm = s.pcm := by simp [encodeSymbol]
@[simp] theorem encodeSymbol_ret (p : Impl) (c : Elem) (cls : SymClass) (v : Bool) :
    (encodeSymbol p c cls v s).ret = s.ret := by simp [encodeSymbol]
@[simp] theorem encodeSymbol_inbox (p : Impl) (c : Elem) (cls : SymClass) (v : Bool) :
    (encodeSymbol p c cls v s).inbox = s.inbox := by simp [encodeSymbol]
@[simp] theorem encodeSymbol_fresh (p : Impl) (c : Elem) (cls : SymClass) (v : Bool) :
    (encodeSymbol p c cls v s).fresh = s.fresh := by simp [encodeSymbol]
@[simp] theorem encodeSymbol_hostSide (p : Impl) (c : Elem) (cls : SymClass) (v : Bool) :
    (encodeSymbol p c cls v s).hostSide = s.hostSide := by simp [encodeSymbol]
@[simp] theorem encodeElem_baudCb (p : Impl) (v : Bool) (c : Elem) : (encodeElem p v c s).baudCb = s.baudCb := by
  unfold encodeElem; split <;> simp
@[simp] theorem encodeElem_markHz (p : Impl) (v : Bool) (c : Elem) : (encodeElem p v c s).markHz = s.markHz := by
  unfold encodeElem; split <;> simp
@[simp] theorem encodeElem_spaceHz (p : Impl) (v : Bool) (c : Elem) : (encodeElem p v c s).spaceHz = s.spaceHz := by
  unfold encodeElem; split <;> simp
@[simp] theorem encodeElem_volPct (p : Impl) (v : Bool) (c : Elem) : (encodeElem p v c s).volPct = s.volPct := by
  unfold encodeElem; split <;> simp
@[simp] theorem encodeElem_verbose (p : Impl) (v : Bool) (c : Elem) : (encodeElem p v c s).verbose = s.verbose := by
  unfold encodeElem; split <;> simp
@[simp] theorem encodeElem_totalUnits (p : Impl) (v : Bool) (c : Elem) : (encodeElem p v c s).totalUnits = s.totalUnits := by
  unfold encodeElem; split <;> simp
@[simp] theorem encodeElem_totalSamples (p : Impl) (v : Bool) (c : Elem) : (encodeElem p v c s).totalSamples = s.totalSamples := by
  unfold encodeElem; split <;> simp
@[simp] theorem encodeElem_cfg (p : Impl) (v : Bool) (c : Elem) : (encodeElem p v c s).cfg = s.cfg := by
  unfold encodeElem; split <;> simp
@[simp] theorem encodeElem_theta (p : Impl) (v : Bool) (c : Elem) : (encodeElem p v c s).theta = s.theta := by
  unfold encodeElem; split <;> simp
@[simp] theorem encodeElem_syn (p : Impl) (v : Bool) (c : Elem) : (encodeElem p v c s).syn = s.syn := by
  unfold encodeElem; split <;> simp
@[simp] theorem encodeElem_txt (p : Impl) (v : Bool) (c : Elem) : (encodeElem p v c s).txt = s.txt := by
  unfold encodeElem; split <;> simp
@[simp] theorem encodeElem_pcm (p : Impl) (v : Bool) (c : Elem) : (encodeElem p v c s).pcm = s.pcm := by
  unfold encodeElem; split <;> simp
@[simp] theorem encodeElem_ret (p : Impl) (v : Bool) (c : Elem) : (encodeElem p v c s).ret = s.ret := by
  unfold encodeElem; split <;> simp
@[simp] theorem encodeElem_inbox (p : Impl) (v : Bool) (c : Elem) : (encodeElem p v c s).inbox = s.inbox := by
  unfold encodeElem; split <;> simp
@[simp] theorem encodeElem_fresh (p : Impl) (v : Bool) (c : Elem) : (encodeElem p v c s).fresh = s.fresh := by
  unfold encodeElem; split <;> simp
@[simp] theorem encodeElem_hostSide (p : Impl) (v : Bool) (c : Elem) : (encodeElem p v c s).hostSide = s.hostSide := by
  unfold encodeElem; split <;> simp
@[simp] theorem encodeElem_phase (p : Impl) (v : Bool) (c : Elem) : (encodeElem p v c s).phase = s.phase := by
  unfold encodeElem; split <;> simp [raise, errorEffect]
@[simp] theorem encodeElem_result (p : Impl) (v : Bool) (c : Elem) : (encodeElem p v c s).result = s.result := by
  unfold encodeElem; split <;> simp [raise, errorEffect]
@[simp] theorem encodeElem_volClamped (p : Impl) (v : Bool) (c : Elem) : (encodeElem p v c s).volClamped = s.volClamped := by
  unfold encodeElem; split <;> simp [raise, errorEffect]

end Sys2Proof.Machine
end

