-- ==== Sys2Proof/Laws/Encoder.lean ====
section
/-! SUPPORT. The spec lemmas of the encoder: everything EMIT, the character step, the character loop and ENCODE can do,
said once, in the terms of `Safety.lean`. -/

namespace Sys2Proof.Machine

/-! ## The table -/

/-- A row that is found is the row of that character. -/
theorem rowOf_elem {c : Elem} {r : SymRow} (h : rowOf c = some r) : r.elem = c := by
  simpa using List.find?_some h

theorem rowOf_mem {c : Elem} {r : SymRow} (h : rowOf c = some r) : r ∈ symRows := List.mem_of_find?_eq_some h

/-- The class of a character is that of its row. -/
theorem classOf_char (p : Impl) (c : Elem) : classOf p (.char c) = (rowOf c).map fun r => classOfRow p r.cls := rfl

/-! ## Units -/

@[simp] theorem frame_length (code : Code5) : (frame code).length = 8 := rfl

@[simp] theorem unitsOf_nil (p : Impl) : unitsOf p [] = [] := rfl

@[simp] theorem unitsOf_cons (p : Impl) (k : Key) (ks : List Key) :
    unitsOf p (k :: ks) = frame (p.code k) ++ unitsOf p ks := rfl

@[simp] theorem unitsOf_append (p : Impl) (ks ls : List Key) : unitsOf p (ks ++ ls) = unitsOf p ks ++ unitsOf p ls := by
  simp [unitsOf]

/-- Every symbol takes eight units (R90). -/
@[simp] theorem unitsOf_length (p : Impl) (ks : List Key) : (unitsOf p ks).length = 8 * ks.length := by
  induction ks with
  | nil => rfl
  | cons k ks ih => simp [ih]; omega

/-- The encoder never writes the reserved code (R96). -/
theorem frame_units (code : Code5) : ∀ u ∈ frame code, u ≠ 0b11#2 := by
  obtain ⟨b1, b2, b3, b4, b5⟩ := code
  revert b1 b2 b3 b4 b5; decide

theorem unitsOf_units (p : Impl) (ks : List Key) : ∀ u ∈ unitsOf p ks, u ≠ 0b11#2 := by
  intro u hu
  obtain ⟨k, -, hk⟩ := List.mem_flatMap.1 hu
  exact frame_units _ u hk

/-! ## One character -/

/-- The marker the mode test puts in. -/
def markerFor (cls : SymClass) (m : Mode) : List Key :=
  match cls with
  | .neutral => []
  | .mode m' => if m' = m then [] else [.marker m']

/-- The mode after the mode test. -/
def modeFor (cls : SymClass) (m : Mode) : Mode :=
  match cls with
  | .neutral => m
  | .mode m' => m'

/-- One supported character, in full (R151, R157 to R159, R163). -/
theorem encodeSymbol_eq (p : Impl) (c : Elem) (cls : SymClass) (v : Bool) (s : State) :
    encodeSymbol p c cls v s = { s with
      mode := modeFor cls s.mode
      bits := s.bits ++ unitsOf p (markerFor cls s.mode ++ [.char c])
      enc := { s.enc with unitCnt := s.enc.unitCnt + 8 * (markerFor cls s.mode ++ [Key.char c]).length }
      evt := s.evt ++ if v then [eventOf .char (.charCode c (p.code (.char c)))] else [] } := by
  cases cls with
  | neutral => cases v <;> simp [encodeSymbol, enterClass, verboseEvent, emitKey, pushEvent, modeFor, markerFor, eventOf]
  | mode m =>
    by_cases h : m = s.mode <;> cases v <;>
      simp [encodeSymbol, enterClass, verboseEvent, emitKey, emitMarker, pushEvent, modeFor, markerFor, eventOf, h,
        Nat.add_assoc]

/-- The symbols of an element that is found. -/
theorem symbolStep_found {c : Elem} {r : SymRow} (p : Impl) (m : Mode) (h : rowOf (upper c) = some r) :
    symbolStep p m c =
      (markerFor (classOfRow p r.cls) m ++ [.char (upper c)], modeFor (classOfRow p r.cls) m) := by
  unfold symbolStep
  rw [classOf_char, h]
  simp only [Option.map]
  cases classOfRow p r.cls with
  | neutral => rfl
  | mode m' => by_cases hm : m' = m <;> simp [markerFor, modeFor, hm]

theorem symbolStep_missing {c : Elem} (p : Impl) (m : Mode) (h : rowOf (upper c) = none) :
    symbolStep p m c = ([], m) := by
  unfold symbolStep; rw [classOf_char, h]; rfl

/-- One turn of the character loop, in full (R151, R155 to R160). -/
theorem encodeElem_eq (p : Impl) (v : Bool) (c : Elem) (s : State) :
    encodeElem p v c s = { s with
      mode := (symbolStep p s.mode c).2
      bits := s.bits ++ unitsOf p (symbolStep p s.mode c).1
      enc := { s.enc with cur := upper c, unitCnt := s.enc.unitCnt + 8 * (symbolStep p s.mode c).1.length }
      evt := s.evt ++ elemEvents p v c
      unsupSeen := s.unsupSeen || !supported c } := by
  unfold encodeElem
  cases h : rowOf (upper c) with
  | none =>
    rw [symbolStep_missing p _ h]
    simp [raise, errorEffect, errorKindOf, errorPayload, pushEvent, readElem, elemEvents, supported, h, eventOf]
  | some r =>
    rw [symbolStep_found p _ h]
    simp [encodeSymbol_eq, readElem, elemEvents, supported, h, rowOf_elem h]

/-- The character loop, in full (R151, R155 to R160). -/
theorem encodeBody_eq (p : Impl) (v : Bool) (text : List Elem) (s : State) :
    ∃ cur, encodeBody p v text s = { s with
      mode := bodyMode p s.mode text
      bits := s.bits ++ unitsOf p (bodySymbols p s.mode text)
      enc := {
        txtPos := s.enc.txtPos + text.length
        cur := cur
        unitCnt := s.enc.unitCnt + 8 * (bodySymbols p s.mode text).length }
      evt := s.evt ++ text.flatMap (elemEvents p v)
      unsupSeen := s.unsupSeen || text.any fun c => !supported c } := by
  induction text generalizing s with
  | nil => exact ⟨s.enc.cur, by simp [encodeBody, bodyMode, bodySymbols]⟩
  | cons c cs ih =>
    obtain ⟨cur, hc⟩ := ih (advanceText (encodeElem p v c s))
    refine ⟨cur, ?_⟩
    rw [encodeBody, hc, encodeElem_eq]
    simp [advanceText, bodyMode, bodySymbols, Nat.mul_add, Nat.add_assoc, Nat.add_comm, Bool.or_assoc]

/-! ## ENCODE -/

/-- ENCODE, in full: what it produces depends on the text, `verbose` and the parameters alone (R43, R44, R151). -/
theorem encodeText_eq (p : Impl) (text : List Elem) (v : Bool) (s : State) :
    encodeText p text v s = { s with
      mode := bodyMode p .lat text
      bits := s.bits ++ unitsOf p (textSymbols p text)
      evt := s.evt ++ textEvents p v text
      totalUnits := 8 * (textSymbols p text).length
      unsupSeen := s.unsupSeen || text.any fun c => !supported c
      enc := Config.freeEnc s.fresh
      fresh := s.fresh + 1 } := by
  obtain ⟨cur, hc⟩ := encodeBody_eq p v text (startSequence p (encodeEnter text s))
  unfold encodeText
  rw [hc]
  simp [closeSequence, startSequence, encodeFinish, encodeEnter, encodeBegin, textEvent, emitKey, pushEvent, textSymbols,
    startSymbols, closeSymbols, textEvents, eventOf, unitsOf, Nat.mul_add]
  omega

end Sys2Proof.Machine
end

