-- ==== Sys2Proof/Laws/PerInstr.lean ====
section
/-! SUPPORT. Per instruction: the format its code has is the format the opcode table gives its row (R113). -/

namespace Sys2Proof

/-- The seven formats of the opcode table (R113). -/
inductive Format where
  | frame8
  | unit2
  | pseudo
  | cmd8
  | access
  | func
  | evt
  deriving DecidableEq, Repr

/-- The format of a code. -/
def Code.format : Code → Format
  | .elem _ => .frame8
  | .marker _ => .frame8
  | .unit _ => .unit2
  | .pseudo _ => .pseudo
  | .cmd _ => .cmd8
  | .regRd _ => .access
  | .regWr _ _ => .access
  | .txtWr _ => .access
  | .reset => .access
  | .call _ => .func
  | .evt _ _ _ => .evt

/-- The format of the table's row. -/
def Instr.format : Instr → Format
  | .latA | .latB | .latC | .latD | .latE | .latF | .latG | .latH | .latI | .latJ | .latK | .latL | .latM
  | .latN | .latO | .latP | .latQ | .latR | .latS | .latT | .latU | .latV | .latW | .latX | .latY | .latZ
  | .fig0 | .fig1 | .fig2 | .fig3 | .fig4 | .fig5 | .fig6 | .fig7 | .fig8 | .fig9 | .figMinus | .figPlus
  | .figQuestion | .figColon | .figLeft | .figRight | .figDot | .figComma | .figSlash | .figSha | .figShcha
  | .figE | .figYu | .figChe | .rusA | .rusBe | .rusVe | .rusGhe | .rusDe | .rusIe | .rusZhe | .rusZe | .rusI
  | .rusShortI | .rusKa | .rusEl | .rusEm | .rusEn | .rusO | .rusPe | .rusEr | .rusEs | .rusTe | .rusU | .rusEf
  | .rusHa | .rusTse | .rusHard | .rusYeru | .rusSoft | .rusYa | .rusIo | .sp | .cr | .lf | .markLat
  | .markFigs | .markRus => .frame8
  | .u0 | .u1 | .uh | .unitReserved => .unit2
  | .startSeq | .closeSeq | .pre | .post => .pseudo
  | .nop | .start | .stop | .cmdReserved _ => .cmd8
  | .regRd _ | .regWr _ _ | .txtWr _ | .reset => .access
  | .encode _ _ | .synthesize _ _ | .grd | .lookup _ | .upper _ | .modeOf _ | .emit _ | .seg _ _ | .amp _ _ => .func
  | .evText _ | .evEncBegin | .evChar _ _ | .evUnsupported _ | .evEncSummary _ | .evEmptyInput
  | .evInvalidConfig _ _ | .evPlaybackFinished | .evTxComplete | .evTxStopped | .evDeviceFail
  | .evPersistFail _ | .evSaved _ => .evt

end Sys2Proof

namespace Sys2Proof.Laws.Format

/-- The code of the instruction has its row's format. -/
def Statement (i : Instr) : Prop := (encode i).format = i.format

theorem latA : Statement .latA := rfl
theorem latB : Statement .latB := rfl
theorem latC : Statement .latC := rfl
theorem latD : Statement .latD := rfl
theorem latE : Statement .latE := rfl
theorem latF : Statement .latF := rfl
theorem latG : Statement .latG := rfl
theorem latH : Statement .latH := rfl
theorem latI : Statement .latI := rfl
theorem latJ : Statement .latJ := rfl
theorem latK : Statement .latK := rfl
theorem latL : Statement .latL := rfl
theorem latM : Statement .latM := rfl
theorem latN : Statement .latN := rfl
theorem latO : Statement .latO := rfl
theorem latP : Statement .latP := rfl
theorem latQ : Statement .latQ := rfl
theorem latR : Statement .latR := rfl
theorem latS : Statement .latS := rfl
theorem latT : Statement .latT := rfl
theorem latU : Statement .latU := rfl
theorem latV : Statement .latV := rfl
theorem latW : Statement .latW := rfl
theorem latX : Statement .latX := rfl
theorem latY : Statement .latY := rfl
theorem latZ : Statement .latZ := rfl
theorem fig0 : Statement .fig0 := rfl
theorem fig1 : Statement .fig1 := rfl
theorem fig2 : Statement .fig2 := rfl
theorem fig3 : Statement .fig3 := rfl
theorem fig4 : Statement .fig4 := rfl
theorem fig5 : Statement .fig5 := rfl
theorem fig6 : Statement .fig6 := rfl
theorem fig7 : Statement .fig7 := rfl
theorem fig8 : Statement .fig8 := rfl
theorem fig9 : Statement .fig9 := rfl
theorem figMinus : Statement .figMinus := rfl
theorem figPlus : Statement .figPlus := rfl
theorem figQuestion : Statement .figQuestion := rfl
theorem figColon : Statement .figColon := rfl
theorem figLeft : Statement .figLeft := rfl
theorem figRight : Statement .figRight := rfl
theorem figDot : Statement .figDot := rfl
theorem figComma : Statement .figComma := rfl
theorem figSlash : Statement .figSlash := rfl
theorem figSha : Statement .figSha := rfl
theorem figShcha : Statement .figShcha := rfl
theorem figE : Statement .figE := rfl
theorem figYu : Statement .figYu := rfl
theorem figChe : Statement .figChe := rfl
theorem rusA : Statement .rusA := rfl
theorem rusBe : Statement .rusBe := rfl
theorem rusVe : Statement .rusVe := rfl
theorem rusGhe : Statement .rusGhe := rfl
theorem rusDe : Statement .rusDe := rfl
theorem rusIe : Statement .rusIe := rfl
theorem rusZhe : Statement .rusZhe := rfl
theorem rusZe : Statement .rusZe := rfl
theorem rusI : Statement .rusI := rfl
theorem rusShortI : Statement .rusShortI := rfl
theorem rusKa : Statement .rusKa := rfl
theorem rusEl : Statement .rusEl := rfl
theorem rusEm : Statement .rusEm := rfl
theorem rusEn : Statement .rusEn := rfl
theorem rusO : Statement .rusO := rfl
theorem rusPe : Statement .rusPe := rfl
theorem rusEr : Statement .rusEr := rfl
theorem rusEs : Statement .rusEs := rfl
theorem rusTe : Statement .rusTe := rfl
theorem rusU : Statement .rusU := rfl
theorem rusEf : Statement .rusEf := rfl
theorem rusHa : Statement .rusHa := rfl
theorem rusTse : Statement .rusTse := rfl
theorem rusHard : Statement .rusHard := rfl
theorem rusYeru : Statement .rusYeru := rfl
theorem rusSoft : Statement .rusSoft := rfl
theorem rusYa : Statement .rusYa := rfl
theorem rusIo : Statement .rusIo := rfl
theorem sp : Statement .sp := rfl
theorem cr : Statement .cr := rfl
theorem lf : Statement .lf := rfl
theorem markLat : Statement .markLat := rfl
theorem markFigs : Statement .markFigs := rfl
theorem markRus : Statement .markRus := rfl
theorem u0 : Statement .u0 := rfl
theorem u1 : Statement .u1 := rfl
theorem uh : Statement .uh := rfl
theorem unitReserved : Statement .unitReserved := rfl
theorem startSeq : Statement .startSeq := rfl
theorem closeSeq : Statement .closeSeq := rfl
theorem pre : Statement .pre := rfl
theorem post : Statement .post := rfl
theorem nop : Statement .nop := rfl
theorem start : Statement .start := rfl
theorem stop : Statement .stop := rfl
theorem cmdReserved (v : Byte) : Statement (.cmdReserved v) := rfl
theorem regRd (n : Nat) : Statement (.regRd n) := rfl
theorem regWr (n : Nat) (v : BitVec 64) : Statement (.regWr n v) := rfl
theorem txtWr (text : List Elem) : Statement (.txtWr text) := rfl
theorem reset : Statement .reset := rfl
theorem encode (text : List Elem) (verbose : Bool) : Statement (.encode text verbose) := rfl
theorem synthesize (units : List UnitCode) (c : SynParams) : Statement (.synthesize units c) := rfl
theorem grd : Statement .grd := rfl
theorem lookup (k : Key) : Statement (.lookup k) := rfl
theorem upper (c : Elem) : Statement (.upper c) := rfl
theorem modeOf (k : Key) : Statement (.modeOf k) := rfl
theorem emit (k : Key) : Statement (.emit k) := rfl
theorem seg (f : BitVec 16) (d : Rat) : Statement (.seg f d) := rfl
theorem amp (θ : Rat) (v : Rat) : Statement (.amp θ v) := rfl
theorem evText (text : List Elem) : Statement (.evText text) := rfl
theorem evEncBegin : Statement .evEncBegin := rfl
theorem evChar (c : Elem) (code : Code5) : Statement (.evChar c code) := rfl
theorem evUnsupported (c : Elem) : Statement (.evUnsupported c) := rfl
theorem evEncSummary (n : Nat) : Statement (.evEncSummary n) := rfl
theorem evEmptyInput : Statement .evEmptyInput := rfl
theorem evInvalidConfig (which : ConfigItem) (value : Int) : Statement (.evInvalidConfig which value) := rfl
theorem evPlaybackFinished : Statement .evPlaybackFinished := rfl
theorem evTxComplete : Statement .evTxComplete := rfl
theorem evTxStopped : Statement .evTxStopped := rfl
theorem evDeviceFail : Statement .evDeviceFail := rfl
theorem evPersistFail (cause : List Elem) : Statement (.evPersistFail cause) := rfl
theorem evSaved (location : List Elem) : Statement (.evSaved location) := rfl

end Sys2Proof.Laws.Format
end

