-- ==== Sys2Proof/Laws/Sine.lean ====
section
/-! SUPPORT. The sine is the exact one and the quantiser is a quantiser of R210: the bounds of `Machine/Sine.lean` close on
`sin(2πθ) × v × A_HALF` (R199, R211, R213), the search among them always ends (Niven's theorem), so `ampInt` is `ampReal`;
every implementation's `quantReal` has the three properties of R210, and every function that has them is some
implementation's. -/

open Filter Topology

namespace Sys2Proof.Machine

/-! ## Bounds that close on a real number -/

/-- The bounds enclose the real number and their width goes to 0. -/
structure Closes (b : Nat → Bounds) (x : ℝ) : Prop where
  lo_le : ∀ k, ((b k).lo : ℝ) ≤ x
  le_hi : ∀ k, x ≤ ((b k).hi : ℝ)
  width : Tendsto (fun k => ((b k).hi : ℝ) - ((b k).lo : ℝ)) atTop (𝓝 0)

namespace Closes
variable {b : Nat → Bounds} {x : ℝ}

/-- The lower bounds tend to the number. -/
theorem lo_tendsto (h : Closes b x) : Tendsto (fun k => ((b k).lo : ℝ)) atTop (𝓝 x) := by
  refine tendsto_of_tendsto_of_tendsto_of_le_of_le (g := fun k => x - (((b k).hi : ℝ) - (b k).lo)) ?_ tendsto_const_nhds
    (fun k => ?_) h.lo_le
  · simpa using h.width.const_sub x
  · have := h.le_hi k; dsimp only; linarith

/-- The upper bounds tend to the number. -/
theorem hi_tendsto (h : Closes b x) : Tendsto (fun k => ((b k).hi : ℝ)) atTop (𝓝 x) := by
  simpa using h.lo_tendsto.add h.width

/-- An exact number. -/
theorem const (q : Rat) : Closes (fun _ => ⟨q, q⟩) (q : ℝ) := ⟨fun _ => le_rfl, fun _ => le_rfl, by simp⟩

/-- The negated number. -/
theorem neg (h : Closes b x) : Closes (fun k => (b k).neg) (-x) := by
  refine ⟨fun k => ?_, fun k => ?_, ?_⟩
  · simpa [Bounds.neg] using h.le_hi k
  · simpa [Bounds.neg] using h.lo_le k
  · simpa [Bounds.neg, sub_eq_add_neg, add_comm] using h.width

/-- The number times a rational. -/
theorem scale (h : Closes b x) (a : Rat) : Closes (fun k => (b k).scale a) (x * a) := by
  by_cases ha : 0 ≤ a
  · have ha' : (0 : ℝ) ≤ a := by exact_mod_cast ha
    refine ⟨fun k => ?_, fun k => ?_, ?_⟩
    · simpa [Bounds.scale, ha] using mul_le_mul_of_nonneg_right (h.lo_le k) ha'
    · simpa [Bounds.scale, ha] using mul_le_mul_of_nonneg_right (h.le_hi k) ha'
    · simpa [Bounds.scale, ha, sub_mul] using h.width.mul_const (a : ℝ)
  · have ha' : (a : ℝ) ≤ 0 := by exact_mod_cast (not_le.1 ha).le
    refine ⟨fun k => ?_, fun k => ?_, ?_⟩
    · simpa [Bounds.scale, ha] using mul_le_mul_of_nonpos_right (h.le_hi k) ha'
    · simpa [Bounds.scale, ha] using mul_le_mul_of_nonpos_right (h.lo_le k) ha'
    · have := h.width.mul_const (-(a : ℝ))
      simp only [zero_mul] at this
      refine this.congr fun k => ?_
      simp only [Bounds.scale, if_neg ha]; push_cast; ring

/-- A number below the real one is below some lower bound. -/
theorem exists_lt_lo (h : Closes b x) {c : ℝ} (hc : c < x) : ∃ k, c < (b k).lo :=
  ((h.lo_tendsto.eventually (lt_mem_nhds hc)).exists)

/-- A number above the real one is above some upper bound. -/
theorem exists_hi_lt (h : Closes b x) {c : ℝ} (hc : x < c) : ∃ k, ((b k).hi : ℝ) < c :=
  ((h.hi_tendsto.eventually (gt_mem_nhds hc)).exists)

end Closes

/-! ## Series -/

/-- The partial sums as sums over a range. -/
theorem alternatingSum_cast (f : Nat → Rat) (n : Nat) :
    (alternatingSum f n : ℝ) = ∑ i ∈ Finset.range n, (-1) ^ i * (f i : ℝ) := by
  induction n with
  | zero => simp [alternatingSum]
  | succ n ih => rw [alternatingSum, Finset.sum_range_succ, ← ih]; push_cast; rfl

/-- An even and an odd number of terms enclose the sum of an alternating series. -/
theorem seriesBounds_encloses {f : Nat → Rat} {l : ℝ} (hs : HasSum (fun i => (-1) ^ i * (f i : ℝ)) l)
    (ha : Antitone fun i => (f i : ℝ)) (k : Nat) : ((seriesBounds f k).lo : ℝ) ≤ l ∧ l ≤ ((seriesBounds f k).hi : ℝ) := by
  simp only [seriesBounds, alternatingSum_cast, terms]
  exact ⟨ha.alternating_series_le_tendsto hs.tendsto_sum_nat _, ha.tendsto_le_alternating_series hs.tendsto_sum_nat _⟩

/-- The two bounds differ by one term. -/
theorem seriesBounds_width (f : Nat → Rat) (k : Nat) : (seriesBounds f k).hi - (seriesBounds f k).lo = f (terms k) := by
  simp [seriesBounds, alternatingSum, terms]

/-- The levels take ever more terms. -/
theorem terms_tendsto : Tendsto terms atTop atTop :=
  tendsto_atTop_mono (fun k => show k ≤ 2 * (k + 7) by omega) tendsto_id

/-- The terms of a convergent series go to 0. -/
theorem term_tendsto {f : Nat → Rat} {l : ℝ} (hs : HasSum (fun i => (-1) ^ i * (f i : ℝ)) l) :
    Tendsto (fun k => (f (terms k) : ℝ)) atTop (𝓝 0) := by
  have := hs.summable.tendsto_atTop_zero.abs
  simp only [abs_mul, abs_pow, abs_neg, abs_one, one_pow, one_mul, abs_zero] at this
  exact ((tendsto_zero_iff_abs_tendsto_zero _).2 this).comp terms_tendsto

/-- The bounds close on the sum. -/
theorem seriesBounds_closes {f : Nat → Rat} {l : ℝ} (hs : HasSum (fun i => (-1) ^ i * (f i : ℝ)) l)
    (ha : Antitone fun i => (f i : ℝ)) : Closes (seriesBounds f) l where
  lo_le k := (seriesBounds_encloses hs ha k).1
  le_hi k := (seriesBounds_encloses hs ha k).2
  width := by simpa only [← Rat.cast_sub, seriesBounds_width] using term_tendsto hs

/-- The series of `arctan(1/q)`. -/
theorem arctan_closes {q : Nat} (hq : 1 < q) : Closes (seriesBounds (arctanTerm q)) (Real.arctan (q : ℝ)⁻¹) := by
  have h1 : (1 : ℝ) < q := by exact_mod_cast hq
  have h0 : (0 : ℝ) ≤ (q : ℝ)⁻¹ := by positivity
  have hlt : (q : ℝ)⁻¹ < 1 := inv_lt_one_of_one_lt₀ h1
  have e : ∀ i, (arctanTerm q i : ℝ) = (q : ℝ)⁻¹ ^ (2 * i + 1) / (2 * i + 1 : Nat) := fun i => by
    simp only [arctanTerm, one_div]; push_cast; rfl
  refine seriesBounds_closes ?_ ?_
  · have := Real.hasSum_arctan (x := (q : ℝ)⁻¹) (by rwa [Real.norm_of_nonneg h0])
    simpa only [e, mul_div_assoc] using this
  · refine antitone_nat_of_succ_le fun i => ?_
    simp only [e]
    gcongr ?_ / ?_
    · exact pow_le_pow_of_le_one h0 hlt.le (by omega)
    · exact_mod_cast (by omega : 2 * i + 1 ≤ 2 * (i + 1) + 1)

/-- Machin's formula. -/
theorem pi_machin : Real.pi = 16 * Real.arctan ((5 : Nat) : ℝ)⁻¹ - 4 * Real.arctan ((239 : Nat) : ℝ)⁻¹ := by
  have := Real.four_mul_arctan_inv_5_sub_arctan_inv_239
  push_cast
  linarith

/-- The bounds of π close on π. -/
theorem pi_closes : Closes piBounds Real.pi := by
  have a := arctan_closes (q := 5) (by norm_num)
  have b := arctan_closes (q := 239) (by norm_num)
  have h3 := Real.pi_gt_three
  have h4 := Real.pi_le_four
  have e := pi_machin
  refine ⟨fun k => ?_, fun k => ?_, ?_⟩
  · have := a.lo_le k; have := b.le_hi k
    simp only [piBounds]; push_cast
    exact max_le h3.le (by linarith)
  · have := a.le_hi k; have := b.lo_le k
    simp only [piBounds]; push_cast
    exact le_min h4 (by linarith)
  · refine squeeze_zero (fun k => ?_) (fun k => ?_) (by simpa using (a.width.const_mul 16).add (b.width.const_mul 4))
    · have := a.lo_le k; have := b.le_hi k; have := a.le_hi k; have := b.lo_le k
      simp only [piBounds]; push_cast
      have h1 : max 3 (16 * ((seriesBounds (arctanTerm 5) k).lo : ℝ) - 4 * (seriesBounds (arctanTerm 239) k).hi) ≤ Real.pi :=
        max_le h3.le (by linarith)
      have h2 : Real.pi ≤ min 4 (16 * ((seriesBounds (arctanTerm 5) k).hi : ℝ) - 4 * (seriesBounds (arctanTerm 239) k).lo) :=
        le_min h4 (by linarith)
      linarith
    · simp only [piBounds]; push_cast
      have h1 := le_max_right (3 : ℝ) (16 * ((seriesBounds (arctanTerm 5) k).lo : ℝ) - 4 * (seriesBounds (arctanTerm 239) k).hi)
      have h2 := min_le_right (4 : ℝ) (16 * ((seriesBounds (arctanTerm 5) k).hi : ℝ) - 4 * (seriesBounds (arctanTerm 239) k).lo)
      linarith

/-- The terms of the sine as real numbers. -/
theorem sineTerm_cast (y : Rat) (i : Nat) : (sineTerm y i : ℝ) = (y : ℝ) ^ (2 * i + 1) / ((2 * i + 1).factorial : ℝ) := by
  simp only [sineTerm]; push_cast; rfl

/-- The series of the sine. -/
theorem sine_hasSum (y : Rat) : HasSum (fun i => (-1) ^ i * (sineTerm y i : ℝ)) (Real.sin y) := by
  simpa only [sineTerm_cast, mul_div_assoc] using Real.hasSum_sin (y : ℝ)

/-- Its terms fall for an angle in [0, 2]. -/
theorem sine_antitone {y : Rat} (h0 : 0 ≤ y) (h2 : y ≤ 2) : Antitone fun i => (sineTerm y i : ℝ) := by
  have h0 : (0 : ℝ) ≤ y := by exact_mod_cast h0
  have h2 : (y : ℝ) ≤ 2 := by exact_mod_cast h2
  refine antitone_nat_of_succ_le fun i => ?_
  simp only [sineTerm_cast]
  rw [show 2 * (i + 1) + 1 = (2 * i + 1) + 1 + 1 by ring, Nat.factorial_succ, Nat.factorial_succ, pow_succ, pow_succ]
  rw [div_le_div_iff₀ (by positivity) (by positivity)]
  push_cast
  have hf : (0 : ℝ) < ((2 * i + 1).factorial : ℝ) := by positivity
  have hp : (0 : ℝ) ≤ (y : ℝ) ^ (2 * i + 1) := by positivity
  have hk : (y : ℝ) * y ≤ (2 * i + 1 + 1 + 1) * (2 * i + 1 + 1) := by
    have : (0 : ℝ) ≤ i := by positivity
    nlinarith
  calc (y : ℝ) ^ (2 * i + 1) * y * y * ((2 * i + 1).factorial : ℝ)
      = ((y : ℝ) ^ (2 * i + 1) * ((2 * i + 1).factorial : ℝ)) * (y * y) := by ring
    _ ≤ ((y : ℝ) ^ (2 * i + 1) * ((2 * i + 1).factorial : ℝ)) * ((2 * i + 1 + 1 + 1) * (2 * i + 1 + 1)) := by gcongr
    _ = _ := by ring

/-- They are largest at 2. -/
theorem sineTerm_bound {y : Rat} (h0 : 0 ≤ y) (h2 : y ≤ 2) (i : Nat) : (sineTerm y i : ℝ) ≤ (sineTerm 2 i : ℝ) := by
  have h0 : (0 : ℝ) ≤ y := by exact_mod_cast h0
  have h2 : (y : ℝ) ≤ 2 := by exact_mod_cast h2
  simp only [sineTerm_cast]; push_cast
  gcongr

/-- The first quarter turn. -/
theorem sinQuarter_closes {t : Rat} (h0 : 0 ≤ t) (h1 : t ≤ 1 / 4) : Closes (sinQuarter t) (Real.sin (2 * Real.pi * t)) := by
  have h1r : (t : ℝ) ≤ 1 / 4 := by have := (Rat.cast_le (K := ℝ)).2 h1; push_cast at this; exact this
  have h0r : (0 : ℝ) ≤ t := by exact_mod_cast h0
  by_cases ha : t = 0
  · subst ha
    have : sinQuarter 0 = fun _ => ⟨0, 0⟩ := by funext k; simp [sinQuarter]
    rw [this]; simpa using Closes.const 0
  by_cases hb : t = 1 / 12
  · subst hb
    have : sinQuarter (1 / 12) = fun _ => ⟨1 / 2, 1 / 2⟩ := by funext k; simp [sinQuarter]
    rw [this]
    have e : Real.sin (2 * Real.pi * ((1 / 12 : Rat) : ℝ)) = ((1 / 2 : Rat) : ℝ) := by
      push_cast
      rw [show 2 * Real.pi * (1 / 12) = Real.pi / 6 by ring, Real.sin_pi_div_six]
    rw [e]; exact Closes.const _
  by_cases hc : t = 1 / 4
  · subst hc
    have : sinQuarter (1 / 4) = fun _ => ⟨1, 1⟩ := by funext k; simp [sinQuarter]
    rw [this]
    have e : Real.sin (2 * Real.pi * ((1 / 4 : Rat) : ℝ)) = ((1 : Rat) : ℝ) := by
      push_cast
      rw [show 2 * Real.pi * (1 / 4) = Real.pi / 2 by ring, Real.sin_pi_div_two]
    rw [e]; exact Closes.const _
  have hq : ∀ k, sinQuarter t k = ⟨(seriesBounds (sineTerm (2 * (piBounds k).lo * t)) k).lo -
        2 * ((piBounds k).hi - (piBounds k).lo) * t,
      (seriesBounds (sineTerm (2 * (piBounds k).lo * t)) k).hi + 2 * ((piBounds k).hi - (piBounds k).lo) * t⟩ := fun k => by
    rw [sinQuarter, if_neg ha, if_neg hb, if_neg hc]
  have hp := pi_closes
  have hlo0 : ∀ k, 3 ≤ (piBounds k).lo := fun k => le_max_left _ _
  have hy0 : ∀ k, 0 ≤ 2 * (piBounds k).lo * t := fun k => by have := hlo0 k; positivity
  have hlo4 : ∀ k, (piBounds k).lo ≤ 4 := fun k => by
    have := hp.lo_le k; have := Real.pi_le_four
    have : (((piBounds k).lo : Rat) : ℝ) ≤ ((4 : Rat) : ℝ) := by push_cast; linarith
    exact_mod_cast this
  have hy2 : ∀ k, 2 * (piBounds k).lo * t ≤ 2 := fun k => by have := hlo0 k; have := hlo4 k; nlinarith
  have hs := fun k => seriesBounds_encloses (sine_hasSum _) (sine_antitone (hy0 k) (hy2 k)) k
  have hd : ∀ k, |Real.sin (2 * Real.pi * t) - Real.sin ((2 * (piBounds k).lo * t : Rat) : ℝ)| ≤
      2 * (((piBounds k).hi : ℝ) - (piBounds k).lo) * t := fun k => by
    refine (Real.abs_sin_sub_sin_le _ _).trans ?_
    push_cast
    rw [← sub_mul, ← mul_sub, abs_of_nonneg]
    · have := hp.le_hi k; gcongr
    · have := hp.lo_le k
      have : (0 : ℝ) ≤ Real.pi - (piBounds k).lo := by linarith
      positivity
  refine ⟨fun k => ?_, fun k => ?_, ?_⟩
  · have := (abs_le.1 (hd k)).1; have := (hs k).1
    rw [hq]; push_cast at *; linarith
  · have := (abs_le.1 (hd k)).2; have := (hs k).2
    rw [hq]; push_cast at *; linarith
  · have hw : ∀ k, ((sinQuarter t k).hi : ℝ) - ((sinQuarter t k).lo : ℝ) =
        (sineTerm (2 * (piBounds k).lo * t) (terms k) : ℝ) + 4 * t * (((piBounds k).hi : ℝ) - (piBounds k).lo) := fun k => by
      rw [hq, ← seriesBounds_width (sineTerm (2 * (piBounds k).lo * t)) k]; push_cast; ring
    simp only [hw]
    have hz : Tendsto (fun k => (sineTerm 2 (terms k) : ℝ) + 4 * t * (((piBounds k).hi : ℝ) - (piBounds k).lo)) atTop (𝓝 0) := by
      simpa using (term_tendsto (sine_hasSum 2)).add (hp.width.const_mul (4 * (t : ℝ)))
    refine squeeze_zero (fun k => ?_) (fun k => ?_) hz
    · have := hp.lo_le k; have := hp.le_hi k
      have h1 : (0 : ℝ) ≤ ((piBounds k).hi : ℝ) - (piBounds k).lo := by linarith
      have h2 : (0 : ℝ) ≤ (sineTerm (2 * (piBounds k).lo * t) (terms k) : ℝ) := by
        rw [sineTerm_cast]
        have : (0 : ℝ) ≤ ((2 * (piBounds k).lo * t : Rat) : ℝ) := by exact_mod_cast hy0 k
        positivity
      positivity
    · have := sineTerm_bound (hy0 k) (hy2 k) (terms k)
      linarith

/-- The whole turn, by the symmetries of the sine. -/
theorem sinPhase_closes {θ : Rat} (h0 : 0 ≤ θ) (h1 : θ < 1) : Closes (sinPhase θ) (Real.sin (2 * Real.pi * θ)) := by
  unfold sinPhase
  split_ifs with a b c
  · exact sinQuarter_closes h0 a
  · have := sinQuarter_closes (t := 1 / 2 - θ) (by linarith) (by linarith)
    rwa [show 2 * Real.pi * ((1 / 2 - θ : Rat) : ℝ) = Real.pi - 2 * Real.pi * θ by push_cast; ring, Real.sin_pi_sub] at this
  · have := (sinQuarter_closes (t := θ - 1 / 2) (by linarith) (by linarith)).neg
    rwa [show 2 * Real.pi * ((θ - 1 / 2 : Rat) : ℝ) = 2 * Real.pi * θ - Real.pi by push_cast; ring, Real.sin_sub_pi,
      neg_neg] at this
  · have := (sinQuarter_closes (t := 1 - θ) (by linarith) (by linarith)).neg
    rwa [show 2 * Real.pi * ((1 - θ : Rat) : ℝ) = 2 * Real.pi - 2 * Real.pi * θ by push_cast; ring, Real.sin_two_pi_sub,
      neg_neg] at this

/-- Every phase, by the period of the sine (R200). -/
theorem sinTurn_closes (θ : Rat) : Closes (sinTurn θ) (Real.sin (2 * Real.pi * θ)) := by
  have := sinPhase_closes (θ := frac θ) (Int.fract_nonneg θ) (Int.fract_lt_one θ)
  rwa [show 2 * Real.pi * ((frac θ : Rat) : ℝ) = 2 * Real.pi * θ - (⌊θ⌋ : ℤ) * (2 * Real.pi) by
    simp only [frac, show θ.floor = ⌊θ⌋ from rfl]; push_cast; ring, Real.sin_sub_int_mul_two_pi] at this

/-- The bounds of a sample close on `sin(2πθ) × v × A_HALF` (R199). -/
theorem ampBounds_closes (θ v : Rat) :
    Closes (ampBounds θ v) (Real.sin (2 * Real.pi * θ) * v * (32767 / 2)) := by
  have := (sinTurn_closes θ).scale (v * Config.aHalf)
  rwa [show Real.sin (2 * Real.pi * θ) * ((v * Config.aHalf : Rat) : ℝ) = Real.sin (2 * Real.pi * θ) * v * (32767 / 2) by
    simp only [Config.aHalf]; push_cast; ring] at this

/-! ## The search -/

/-- An answer of the search is one of the answers. -/
theorem firstSome_some {α : Type} {f : Nat → Option α} {n : Nat} {a : α} (h : firstSome f n = some a) :
    ∃ k, n ≤ k ∧ f k = some a := by
  refine firstSome.partial_correctness f (fun n a => ∃ k, n ≤ k ∧ f k = some a) (fun g ih n a h => ?_) n a h
  cases hf : f n with
  | some b => rw [hf] at h; cases h; exact ⟨n, le_rfl, hf⟩
  | none =>
    rw [hf] at h
    obtain ⟨k, hk, hv⟩ := ih _ _ h
    exact ⟨k, by omega, hv⟩

/-- The search ends when there is an answer. -/
theorem firstSome_isSome {α : Type} {f : Nat → Option α} {n k : Nat} (hk : n ≤ k) (h : (f k).isSome = true) :
    (firstSome f n).isSome = true := by
  obtain ⟨d, rfl⟩ := Nat.exists_eq_add_of_le hk
  induction d generalizing n with
  | zero =>
    rw [firstSome]
    cases hf : f n with
    | some b => rfl
    | none => rw [Nat.add_zero, hf] at h; cases h
  | succ d ih =>
    rw [firstSome]
    cases hf : f n with
    | some b => rfl
    | none => exact ih (n := n + 1) (by omega) (by rwa [Nat.add_right_comm])

/-- The search over the lower bounds decides "more than some `c i`". -/
theorem someAbove_iff {x : Nat → Bounds} {r : ℝ} (h : Closes x r) (c : Nat → Rat) :
    someAbove x c = true ↔ ∃ i, (c i : ℝ) < r := by
  unfold someAbove
  constructor
  · intro hs
    obtain ⟨u, hu⟩ := Option.isSome_iff_exists.1 hs
    obtain ⟨j, -, hj⟩ := firstSome_some hu
    split at hj
    · rename_i hlt
      exact ⟨_, lt_of_lt_of_le (by exact_mod_cast hlt) (h.lo_le _)⟩
    · cases hj
  · rintro ⟨i, hi⟩
    obtain ⟨k, hk⟩ := h.exists_lt_lo hi
    refine firstSome_isSome (k := Nat.pair i k) (Nat.zero_le _) ?_
    rw [Nat.unpair_pair, if_pos (by exact_mod_cast hk)]; rfl

/-- The search over the upper bounds decides "less than some `c i`". -/
theorem someBelow_iff {x : Nat → Bounds} {r : ℝ} (h : Closes x r) (c : Nat → Rat) :
    someBelow x c = true ↔ ∃ i, r < (c i : ℝ) := by
  unfold someBelow
  constructor
  · intro hs
    obtain ⟨u, hu⟩ := Option.isSome_iff_exists.1 hs
    obtain ⟨j, -, hj⟩ := firstSome_some hu
    split at hj
    · rename_i hlt
      exact ⟨_, lt_of_le_of_lt (h.le_hi _) (by exact_mod_cast hlt)⟩
    · cases hj
  · rintro ⟨i, hi⟩
    obtain ⟨k, hk⟩ := h.exists_hi_lt hi
    refine firstSome_isSome (k := Nat.pair i k) (Nat.zero_le _) ?_
    rw [Nat.unpair_pair, if_pos (by exact_mod_cast hk)]; rfl

/-- The computed side of a threshold is the real one. -/
theorem pastThreshold_iff {x : Nat → Bounds} {r : ℝ} (h : Closes x r) (t : Threshold) :
    pastThreshold t x = true ↔ realPast t r := by
  cases t with
  | above c => exact someAbove_iff h c
  | notBelow c =>
    simp only [pastThreshold, realPast, Bool.not_eq_true', ← Bool.not_eq_true, someBelow_iff h c, not_exists, not_lt]

/-- The bounds of an exact integer. -/
theorem place_exactly {b : Bounds} {n : Int} (h : b.place = some (.exactly n)) : b.lo = n ∧ b.hi = n := by
  unfold Bounds.place at h
  dsimp only at h
  split_ifs at h with h1
  · cases h; exact h1
  · cases h

/-- The bounds of a number between two integers. -/
theorem place_between {b : Bounds} {n : Int} (h : b.place = some (.between n)) : (n : Rat) < b.lo ∧ b.hi < n + 1 := by
  unfold Bounds.place at h
  dsimp only at h
  split_ifs at h with h1 h2
  · cases h
  · cases h; exact h2

/-- What a place says of the real number. -/
theorem place_spec {b : Bounds} {r : ℝ} (h1 : (b.lo : ℝ) ≤ r) (h2 : r ≤ b.hi) {q : Place} (h : b.place = some q) :
    match q with
    | .exactly n => r = n
    | .between n => (n : ℝ) < r ∧ r < n + 1 := by
  cases q with
  | exactly n =>
    obtain ⟨a, b⟩ := place_exactly h
    rw [a] at h1; rw [b] at h2; push_cast at h1 h2
    exact le_antisymm h2 h1
  | between n =>
    obtain ⟨a, b⟩ := place_between h
    have a := (Rat.cast_lt (K := ℝ)).2 a
    have b := (Rat.cast_lt (K := ℝ)).2 b
    push_cast at a b
    exact ⟨by linarith, by linarith⟩

/-- Equal bounds settle the place. -/
theorem place_of_eq {b : Bounds} (h : b.lo = b.hi) : b.place.isSome = true := by
  unfold Bounds.place
  dsimp only
  have h1 : ((b.lo.floor : Int) : Rat) ≤ b.lo := Int.floor_le b.lo
  have h2 : b.lo < b.lo.floor + 1 := Int.lt_floor_add_one b.lo
  rcases h1.lt_or_eq with h3 | h3
  · rw [if_neg (fun hc => absurd hc.1.symm h3.ne), if_pos ⟨h3, h ▸ h2⟩]; rfl
  · rw [if_pos ⟨h3.symm, h ▸ h3.symm⟩]; rfl

/-- Some bounds settle the place of a number that is no integer. -/
theorem place_of_not_int {x : Nat → Bounds} {r : ℝ} (h : Closes x r) (hr : ∀ n : ℤ, r ≠ n) :
    ∃ k, (x k).place.isSome = true := by
  have hl : (⌊r⌋ : ℝ) < r := (Int.floor_le r).lt_of_ne (hr _).symm
  have hu : r < ⌊r⌋ + 1 := Int.lt_floor_add_one r
  obtain ⟨k, hk1, hk2⟩ := ((h.lo_tendsto.eventually (lt_mem_nhds hl)).and (h.hi_tendsto.eventually (gt_mem_nhds hu))).exists
  refine ⟨k, ?_⟩
  have hf : (x k).lo.floor = ⌊r⌋ := by
    have := h.lo_le k
    change ⌊(x k).lo⌋ = _
    rw [← Rat.floor_cast (α := ℝ), Int.floor_eq_iff]
    exact ⟨hk1.le, by linarith⟩
  have h1 : ((⌊r⌋ : Int) : Rat) < (x k).lo := by exact_mod_cast hk1
  have h2 : (x k).hi < ((⌊r⌋ : Int) : Rat) + 1 := by
    have : (((x k).hi : Rat) : ℝ) < (((⌊r⌋ : Int) + 1 : Rat) : ℝ) := by push_cast; exact hk2
    exact_mod_cast this
  unfold Bounds.place
  dsimp only
  rw [hf, if_neg (fun hc => absurd hc.1 h1.ne'), if_pos ⟨h1, h2⟩]; rfl

/-- The quantiser on bounds is the quantiser on the real number. -/
theorem quantize_eq (p : Impl) {x : Nat → Bounds} {r : ℝ} (h : Closes x r) (hp : ∃ k, (x k).place.isSome = true) :
    quantize p x = quantReal p r := by
  obtain ⟨k, hk⟩ := hp
  obtain ⟨q, hq⟩ := Option.isSome_iff_exists.1 (firstSome_isSome (f := fun k => (x k).place) (Nat.zero_le k) hk)
  obtain ⟨j, -, hj⟩ := firstSome_some hq
  have hs := place_spec (h.lo_le j) (h.le_hi j) hj
  unfold quantize quantReal
  rw [hq]
  cases q with
  | exactly n =>
    dsimp only at hs
    subst hs
    rw [Int.floor_intCast, if_pos rfl]
  | between n =>
    dsimp only at hs ⊢
    have hf : ⌊r⌋ = n := Int.floor_eq_iff.2 ⟨hs.1.le, hs.2⟩
    rw [hf, if_neg hs.1.ne']
    by_cases hb : pastThreshold (p.quant n) x = true
    · rw [if_pos hb, if_pos ((pastThreshold_iff h _).1 hb)]
    · rw [if_neg hb, if_neg fun hr => hb ((pastThreshold_iff h _).2 hr)]

/-- By Niven's theorem a rational sine is at one of the three exact points of the quarter (R213). -/
theorem sinQuarter_exact {t : Rat} (h0 : 0 ≤ t) (h1 : t ≤ 1 / 4) (hq : ∃ q : ℚ, Real.sin (2 * Real.pi * t) = q) (k : Nat) :
    (sinQuarter t k).lo = (sinQuarter t k).hi := by
  have hm : (1 / 2 - 2 * t : ℚ) ∈ ({0, 1 / 3, 1 / 2, 2 / 3, 1} : Set ℚ) := by
    refine niven_angle_div_pi_eq ?_ ⟨by linarith, by linarith⟩
    obtain ⟨q, hq⟩ := hq
    refine ⟨q, ?_⟩
    rw [← hq, show ((1 / 2 - 2 * t : ℚ) : ℝ) * Real.pi = Real.pi / 2 - 2 * Real.pi * t by push_cast; ring,
      Real.cos_pi_div_two_sub]
  have : t = 0 ∨ t = 1 / 12 ∨ t = 1 / 4 := by
    simp only [Set.mem_insert_iff, Set.mem_singleton_iff] at hm
    rcases hm with h | h | h | h | h
    · exact .inr (.inr (by linarith))
    · exact .inr (.inl (by linarith))
    · exact .inl (by linarith)
    · linarith
    · linarith
  unfold sinQuarter
  rcases this with rfl | rfl | rfl
  · simp
  · simp
  · simp

/-- Equal bounds stay equal when negated. -/
theorem Bounds.neg_exact {b : Bounds} (h : b.lo = b.hi) : b.neg.lo = b.neg.hi := by simp [Bounds.neg, h]

/-- Equal bounds stay equal when scaled. -/
theorem Bounds.scale_exact {b : Bounds} (h : b.lo = b.hi) (a : Rat) : (b.scale a).lo = (b.scale a).hi := by
  unfold Bounds.scale; split <;> simp [h]

/-- A rational sine has equal bounds (R213). -/
theorem sinTurn_exact {θ : Rat} (hq : ∃ q : ℚ, Real.sin (2 * Real.pi * θ) = q) (k : Nat) :
    (sinTurn θ k).lo = (sinTurn θ k).hi := by
  obtain ⟨q, hq⟩ := hq
  have e : Real.sin (2 * Real.pi * (frac θ : Rat)) = q := by
    rw [← hq, show 2 * Real.pi * ((frac θ : Rat) : ℝ) = 2 * Real.pi * θ - (⌊θ⌋ : ℤ) * (2 * Real.pi) by
      simp only [frac, show θ.floor = ⌊θ⌋ from rfl]; push_cast; ring, Real.sin_sub_int_mul_two_pi]
  have h0 : 0 ≤ frac θ := Int.fract_nonneg θ
  have h1 : frac θ < 1 := Int.fract_lt_one θ
  unfold sinTurn sinPhase
  split_ifs with a b c
  · exact sinQuarter_exact h0 a ⟨q, e⟩ k
  · refine sinQuarter_exact (by linarith) (by linarith) ⟨q, ?_⟩ k
    rw [← e, show 2 * Real.pi * ((1 / 2 - frac θ : Rat) : ℝ) = Real.pi - 2 * Real.pi * (frac θ : Rat) by push_cast; ring,
      Real.sin_pi_sub]
  · refine Bounds.neg_exact (sinQuarter_exact (by linarith) (by linarith) ⟨-q, ?_⟩ k)
    rw [show 2 * Real.pi * ((frac θ - 1 / 2 : Rat) : ℝ) = 2 * Real.pi * (frac θ : Rat) - Real.pi by push_cast; ring,
      Real.sin_sub_pi, e]; push_cast; rfl
  · refine Bounds.neg_exact (sinQuarter_exact (by linarith) (by linarith) ⟨-q, ?_⟩ k)
    rw [show 2 * Real.pi * ((1 - frac θ : Rat) : ℝ) = 2 * Real.pi - 2 * Real.pi * (frac θ : Rat) by push_cast; ring,
      Real.sin_two_pi_sub, e]; push_cast; rfl

/-- The search for the place of a sample always ends: an irrational sine times a rational is no integer. -/
theorem ampBounds_place (θ v : Rat) : ∃ k, (ampBounds θ v k).place.isSome = true := by
  by_cases hq : ∃ q : ℚ, Real.sin (2 * Real.pi * θ) = q
  · exact ⟨0, place_of_eq (Bounds.scale_exact (sinTurn_exact hq 0) _)⟩
  by_cases hv : v = 0
  · refine ⟨0, place_of_eq ?_⟩
    simp [ampBounds, Bounds.scale, hv]
  refine place_of_not_int (ampBounds_closes θ v) fun n hn => hq ⟨n / (v * (32767 / 2)), ?_⟩
  have hv : (v : ℝ) ≠ 0 := by exact_mod_cast hv
  push_cast
  rw [← hn]
  field_simp

/-- `ampInt` is the quantiser of the exact real number (R199, R210, R213). -/
theorem ampInt_eq (p : Impl) (θ v : Rat) : ampInt p θ v = ampReal p θ v :=
  quantize_eq p (ampBounds_closes θ v) (ampBounds_place θ v)

/-! ## `QUANT` (R210) -/

/-- `|QUANT(x) - x| < 1` (R210). -/
theorem quantReal_near (p : Impl) (r : ℝ) : |(quantReal p r : ℝ) - r| < 1 := by
  have h1 := Int.floor_le r
  have h2 := Int.lt_floor_add_one r
  unfold quantReal
  rw [abs_lt]
  split_ifs with a b
  · exact ⟨by linarith, by linarith⟩
  · have := h1.lt_of_ne (Ne.symm a); push_cast; exact ⟨by linarith, by linarith⟩
  · exact ⟨by linarith, by linarith⟩

/-- `QUANT(x) = x` at an integer (R210). -/
theorem quantReal_int (p : Impl) (n : ℤ) : quantReal p n = n := by simp [quantReal]

/-- Past a threshold, all larger numbers are. -/
theorem realPast_mono {t : Threshold} {r s : ℝ} (h : r ≤ s) (hp : realPast t r) : realPast t s := by
  cases t with
  | above c => obtain ⟨i, hi⟩ := hp; exact ⟨i, hi.trans_le h⟩
  | notBelow c => exact fun i => (hp i).trans h

/-- `QUANT` is non-decreasing (R210). -/
theorem quantReal_mono (p : Impl) : Monotone (quantReal p) := by
  intro r s h
  have hf := Int.floor_le_floor h
  have hr : quantReal p r ≤ ⌊r⌋ + 1 := by unfold quantReal; split_ifs <;> omega
  have hs : ⌊s⌋ ≤ quantReal p s := by unfold quantReal; split_ifs <;> omega
  rcases hf.lt_or_eq with h1 | h1
  · omega
  · unfold quantReal at *
    rw [← h1] at hs ⊢
    split_ifs with a b c d <;> try omega
    · rename_i hs'
      exact absurd (le_antisymm (hs' ▸ h) (Int.floor_le r)) a
    · exact absurd (realPast_mono h ‹_›) ‹_›

open Classical in
/-- Between `n` and `n + 1` a quantiser steps up at one threshold. -/
theorem threshold_exists {q : ℝ → ℤ} (near : ∀ r, |(q r : ℝ) - r| < 1) (mono : Monotone q) (n : ℤ) :
    ∃ t : Threshold, ∀ r : ℝ, (n : ℝ) < r → r < n + 1 → (realPast t r ↔ q r = n + 1) := by
  obtain ⟨d, hd⟩ := exists_surjective_nat ℚ
  have up : ∀ {u r : ℝ}, q u = n + 1 → u ≤ r → r < n + 1 → q r = n + 1 := fun {u r} hu hur hr => by
    have h1 := mono hur
    have h2 : (q r : ℝ) < n + 2 := by have := (abs_lt.1 (near r)).2; linarith
    have : q r < n + 2 := by exact_mod_cast h2
    omega
  by_cases hmin : ∃ a : ℝ, ((n : ℝ) < a ∧ a < n + 1 ∧ q a = n + 1) ∧ ∀ r : ℝ, (n : ℝ) < r → r < n + 1 → q r = n + 1 → a ≤ r
  · obtain ⟨a, ⟨ha1, ha2, ha3⟩, hle⟩ := hmin
    refine ⟨.notBelow fun i => if (d i : ℝ) < a then d i else n, fun r h1 h2 => ⟨fun h => ?_, fun h i => ?_⟩⟩
    · refine up ha3 (not_lt.1 fun hlt => ?_) h2
      obtain ⟨c, hc1, hc2⟩ := exists_rat_btwn hlt
      obtain ⟨i, rfl⟩ := hd c
      have := h i
      dsimp only at this
      rw [if_pos hc2] at this
      linarith
    · have := hle r h1 h2 h
      dsimp only
      split_ifs with hi
      · linarith
      · push_cast; linarith
  · refine ⟨.above fun i => if ∃ u : ℝ, q u = n + 1 ∧ u < d i then d i else n + 1, fun r h1 h2 => ⟨?_, fun h => ?_⟩⟩
    · rintro ⟨i, hi⟩
      dsimp only at hi
      split_ifs at hi with hu
      · obtain ⟨u, hu1, hu2⟩ := hu
        exact up hu1 (by linarith) h2
      · push_cast at hi; linarith
    · obtain ⟨u, hu⟩ : ∃ u : ℝ, q u = n + 1 ∧ u < r := by
        by_contra hno
        push Not at hno
        exact hmin ⟨r, ⟨h1, h2, h⟩, fun s hs1 hs2 hs3 => hno s hs3⟩
      obtain ⟨c, hc1, hc2⟩ := exists_rat_btwn hu.2
      obtain ⟨i, rfl⟩ := hd c
      exact ⟨i, by dsimp only; rw [if_pos ⟨u, hu.1, hc1⟩]; exact hc2⟩

/-- Every quantiser of R210 is the quantiser of some implementation that differs from `p` in nothing else. -/
theorem quantReal_surjective (p : Impl) {q : ℝ → ℤ} (near : ∀ r, |(q r : ℝ) - r| < 1) (int : ∀ n : ℤ, q n = n)
    (mono : Monotone q) : ∃ t : Int → Threshold, quantReal { p with quant := t } = q := by
  choose t ht using threshold_exists near mono
  refine ⟨t, funext fun r => ?_⟩
  unfold quantReal
  split_ifs with a b
  · rw [a, int, Int.floor_intCast]
  · exact ((ht _ r ((Int.floor_le r).lt_of_ne (Ne.symm a)) (Int.lt_floor_add_one r)).1 b).symm
  · have h1 : (⌊r⌋ : ℝ) < r := (Int.floor_le r).lt_of_ne (Ne.symm a)
    have h2 := Int.lt_floor_add_one r
    have hn : q r ≠ ⌊r⌋ + 1 := fun h => b ((ht _ r h1 h2).2 h)
    have h3 := abs_lt.1 (near r)
    have h4 : q r < ⌊r⌋ + 2 := by have : (q r : ℝ) < ⌊r⌋ + 2 := by linarith
                                  exact_mod_cast this
    have h5 : ⌊r⌋ - 1 < q r := by have : (⌊r⌋ : ℝ) - 1 < q r := by linarith
                                  exact_mod_cast this
    have h6 := mono h1.le
    rw [int] at h6
    omega

/-! ## The range of a sample -/

/-- `QUANT` keeps an upper bound that is an integer. -/
theorem quantReal_le (p : Impl) {r : ℝ} {n : ℤ} (h : r ≤ n) : quantReal p r ≤ n :=
  quantReal_int p n ▸ quantReal_mono p h

/-- `QUANT` keeps a lower bound that is an integer. -/
theorem le_quantReal (p : Impl) {r : ℝ} {n : ℤ} (h : (n : ℝ) ≤ r) : n ≤ quantReal p r :=
  quantReal_int p n ▸ quantReal_mono p h

/-- A sample is inside -16384 to 16384 for every admissible quantiser (R199). -/
theorem ampInt_range (p : Impl) (θ : Rat) {v : Rat} (h0 : 0 ≤ v) (h1 : v ≤ 1) :
    -16384 ≤ ampInt p θ v ∧ ampInt p θ v ≤ 16384 := by
  have h0 : (0 : ℝ) ≤ v := by exact_mod_cast h0
  have h1 : (v : ℝ) ≤ 1 := by exact_mod_cast h1
  have hl := mul_le_mul_of_nonneg_right (Real.neg_one_le_sin (2 * Real.pi * θ)) h0
  have hu := mul_le_mul_of_nonneg_right (Real.sin_le_one (2 * Real.pi * θ)) h0
  rw [ampInt_eq]
  exact ⟨le_quantReal p (by push_cast; linarith), quantReal_le p (by push_cast; linarith)⟩

/-- The 16-bit word of a sample stands for its integer (R199, R67). -/
theorem amp_toInt (p : Impl) (θ : Rat) {v : Rat} (h0 : 0 ≤ v) (h1 : v ≤ 1) : (amp p θ v).toInt = ampInt p θ v := by
  obtain ⟨a, b⟩ := ampInt_range p θ h0 h1
  unfold amp
  rw [BitVec.toInt_ofInt, Int.bmod_eq_of_le] <;> norm_num <;> omega

/-! ## The kernel's way to a sample -/

/-- What the bounds at level 0 and the first number of a threshold settle of a sample: no search, so the kernel evaluates
it. -/
def firstLook (p : Impl) (b : Bounds) : Option Int :=
  match b.place with
  | some (.exactly n) => some n
  | some (.between n) =>
    match p.quant n with
    | .above c => if c 0 < b.lo then some (n + 1) else none
    | .notBelow c => if b.hi < c 0 then some n else none
  | none => none

/-- What the first look settles is the sample. -/
theorem ampInt_of_firstLook {p : Impl} {θ v : Rat} {n : Int} (h : firstLook p (ampBounds θ v 0) = some n) :
    ampInt p θ v = n := by
  have hc := ampBounds_closes θ v
  rw [ampInt_eq]
  unfold firstLook at h
  cases hb : (ampBounds θ v 0).place with
  | none => rw [hb] at h; cases h
  | some q =>
    rw [hb] at h
    have hs := place_spec (hc.lo_le 0) (hc.le_hi 0) hb
    unfold ampReal
    cases q with
    | exactly m => cases h; dsimp only at hs; rw [hs, quantReal_int]
    | between m =>
      dsimp only at h hs
      have hf := Int.floor_eq_iff.2 ⟨hs.1.le, hs.2⟩
      unfold quantReal
      rw [hf, if_neg hs.1.ne']
      cases ht : p.quant m with
      | above c =>
        rw [ht] at h; dsimp only at h
        split_ifs at h with hlt
        cases h
        exact if_pos ⟨0, lt_of_lt_of_le (by exact_mod_cast hlt) (hc.lo_le 0)⟩
      | notBelow c =>
        rw [ht] at h; dsimp only at h
        split_ifs at h with hlt
        cases h
        refine if_neg fun hr => absurd (hr 0) (not_le.2 (lt_of_le_of_lt (hc.le_hi 0) ?_))
        exact_mod_cast hlt

/-- The first looks at the samples of a segment. -/
def segmentLooks (p : Impl) (θ : Rat) (f : BitVec 16) (n : Nat) (v : Rat) : List (Option Int) :=
  (List.range n).map fun (i : Nat) => firstLook p (ampBounds (frac (θ + f.toNat * i / Config.sampleRate)) v 0)

/-- What they settle are the samples of the segment. -/
theorem segmentSamples_of_looks {p : Impl} {θ : Rat} {f : BitVec 16} {n : Nat} {v : Rat} {xs : List Int}
    (h : segmentLooks p θ f n v = xs.map some) : segmentSamples p θ f n v = xs.map (BitVec.ofInt 16) := by
  unfold segmentSamples segmentLooks at *
  have hl : xs.length = n := by simpa using (congrArg List.length h).symm
  refine List.ext_getElem (by simp [hl]) fun i h1 h2 => ?_
  have hi : i < n := by simpa using h1
  have := congrArg (fun l => l[i]?) h
  simp only [List.getElem?_map, List.getElem?_range hi, List.getElem?_eq_getElem (hl.symm ▸ hi : i < xs.length),
    Option.map_some, Option.some.injEq] at this
  simp only [List.getElem_map, List.getElem_range, amp, ampInt_of_firstLook this]

end Sys2Proof.Machine
end

