-- ==== Sys2Proof/Machine/Reference.lean ====
section
/-! DEFINITION. The reference values of the OPEN parameters (`00_scope.md` rule R12), with which the spec's test vectors are
computed: `SYMTAB_REF` (`40_symbol_table.md` rule R139) and its properties (R140), `MODE_CTRL` = `NEUTRAL`, ties up,
truncation toward zero (`00_scope.md` rule R16), `SAVE_AFTER_STOP` = `completes`. Nothing of the machine depends on them. -/

namespace Sys2Proof.Machine

/-- `SYMTAB_REF`: each code written as its five bits, b1 on the left (R139). -/
def symtabRef : List (Key × Nat) :=
  [(.char 0x0041#21, 11000),
   (.char 0x0042#21, 10011),
   (.char 0x0043#21, 01110),
   (.char 0x0044#21, 10010),
   (.char 0x0045#21, 10000),
   (.char 0x0046#21, 10110),
   (.char 0x0047#21, 01011),
   (.char 0x0048#21, 00101),
   (.char 0x0049#21, 01100),
   (.char 0x004A#21, 11010),
   (.char 0x004B#21, 11110),
   (.char 0x004C#21, 01001),
   (.char 0x004D#21, 00111),
   (.char 0x004E#21, 00110),
   (.char 0x004F#21, 00011),
   (.char 0x0050#21, 01101),
   (.char 0x0051#21, 11101),
   (.char 0x0052#21, 01010),
   (.char 0x0053#21, 10100),
   (.char 0x0054#21, 00001),
   (.char 0x0055#21, 11100)] ++
  [(.char 0x0056#21, 01111),
   (.char 0x0057#21, 11001),
   (.char 0x0058#21, 10111),
   (.char 0x0059#21, 10101),
   (.char 0x005A#21, 10001),
   (.char 0x0030#21, 01101),
   (.char 0x0031#21, 11101),
   (.char 0x0032#21, 11001),
   (.char 0x0033#21, 10000),
   (.char 0x0034#21, 01010),
   (.char 0x0035#21, 00001),
   (.char 0x0036#21, 10101),
   (.char 0x0037#21, 11100),
   (.char 0x0038#21, 01100),
   (.char 0x0039#21, 00011),
   (.char 0x002D#21, 11000),
   (.char 0x002B#21, 10001),
   (.char 0x003F#21, 10011),
   (.char 0x003A#21, 01110),
   (.char 0x0028#21, 11110),
   (.char 0x0029#21, 01001)] ++
  [(.char 0x002E#21, 00111),
   (.char 0x002C#21, 00110),
   (.char 0x002F#21, 10111),
   (.char 0x0428#21, 01011),
   (.char 0x0429#21, 00101),
   (.char 0x042D#21, 10110),
   (.char 0x042E#21, 11010),
   (.char 0x0427#21, 01010),
   (.char 0x0410#21, 11000),
   (.char 0x0411#21, 10011),
   (.char 0x0412#21, 11001),
   (.char 0x0413#21, 01011),
   (.char 0x0414#21, 10010),
   (.char 0x0415#21, 10000),
   (.char 0x0416#21, 01111),
   (.char 0x0417#21, 10001),
   (.char 0x0418#21, 01100),
   (.char 0x0419#21, 11010),
   (.char 0x041A#21, 11110),
   (.char 0x041B#21, 01001),
   (.char 0x041C#21, 00111)] ++
  [(.char 0x041D#21, 00110),
   (.char 0x041E#21, 00011),
   (.char 0x041F#21, 01101),
   (.char 0x0420#21, 01010),
   (.char 0x0421#21, 10100),
   (.char 0x0422#21, 00001),
   (.char 0x0423#21, 11100),
   (.char 0x0424#21, 10110),
   (.char 0x0425#21, 00101),
   (.char 0x0426#21, 01110),
   (.char 0x042A#21, 10111),
   (.char 0x042B#21, 10101),
   (.char 0x042C#21, 10111),
   (.char 0x042F#21, 11101),
   (.char 0x0401#21, 10000),
   (.char 0x0020#21, 00100),
   (.char 0x000D#21, 00010),
   (.char 0x000A#21, 01000),
   (.marker .lat, 11111),
   (.marker .figs, 11011),
   (.marker .rus, 00000)]

/-- A code from its five bits written as decimal digits. -/
def code5 (n : Nat) : Code5 :=
  ⟨n / 10000 % 10 = 1, n / 1000 % 10 = 1, n / 100 % 10 = 1, n / 10 % 10 = 1, n % 10 = 1⟩

/-- `SYMTAB_REF` as a function; `00000` off its 84 keys, where `lookup` does not ask it. -/
def symtabRefCode (k : Key) : Code5 := code5 (((symtabRef.find? fun r => r.1 == k).map Prod.snd).getD 0)

/-- The codes of the keys of some rows. -/
def rowCodes (code : Key → Code5) (rows : List SymRow) : List Code5 := rows.map fun r => code (.char r.elem)

/-- The keys of SP, CR, LF and the three markers. -/
def sixKeys : List Key := [.char 0x0020#21, crKey, lfKey, .marker .lat, .marker .figs, .marker .rus]

/-- The properties of `SYMTAB_REF`, of a table of codes (R140). -/
structure SymtabProperties (code : Key → Code5) : Prop where
  /-- "Within the class `LAT` the 26 codes are distinct." -/
  lat_distinct : latRows.length = 26 ∧ (rowCodes code latRows).Nodup
  /-- "Within `FIGS` the 24 keys have 23 distinct codes". -/
  figs_codes : figRows.length = 24 ∧ (rowCodes code figRows).dedup.length = 23
  /-- "`4` and `Ч` share `01010`". -/
  figs_shared : code (.char 0x0034#21) = code5 01010 ∧ code (.char 0x0427#21) = code5 01010
  /-- "Within `RUS` the 28 keys have 26 distinct codes". -/
  rus_codes : rusRows.length = 28 ∧ (rowCodes code rusRows).dedup.length = 26
  /-- "`Е` and `Ё` share `10000`". -/
  rus_shared_ie : code (.char 0x0415#21) = code5 10000 ∧ code (.char 0x0401#21) = code5 10000
  /-- "`Ь` and `Ъ` share `10111`". -/
  rus_shared_sign : code (.char 0x042C#21) = code5 10111 ∧ code (.char 0x042A#21) = code5 10111
  /-- The six codes of SP, CR, LF and the markers. -/
  six_codes : sixKeys.map code = [code5 00100, code5 00010, code5 01000, code5 11111, code5 11011, code5 00000]
  /-- They "are used by no letter or figure". -/
  six_unused : ∀ c ∈ rowCodes code (latRows ++ figRows ++ rusRows), c ∉ sixKeys.map code
  /-- The 32 codes of the `LAT` page and the six "are all 32 values of 5 bits". -/
  lat_page : ∀ b1 b2 b3 b4 b5 : Bool, (⟨b1, b2, b3, b4, b5⟩ : Code5) ∈ rowCodes code latRows ++ sixKeys.map code
  /-- "The code `10010` (D) and `10100` (S) and `01111` (V) have no key in `FIGS`." -/
  figs_gaps : ∀ g ∈ [(0x0044#21, code5 10010), (0x0053#21, code5 10100), (0x0056#21, code5 01111)],
    code (.char g.1) = g.2 ∧ g.2 ∉ rowCodes code figRows

/-- `trunc0(x)`: truncation toward zero (R16). -/
noncomputable def trunc0 (x : ℝ) : ℤ := if 0 ≤ x then ⌊x⌋ else ⌈x⌉

/-- The thresholds of `trunc0`: from 0 up the whole interval between two integers goes down, below 0 it goes up. -/
def truncThreshold (n : Int) : Threshold := if 0 ≤ n then .notBelow fun _ => n + 1 else .above fun _ => n

/-- The reference instance; `TEXT_MAX` and `REG_BASE` have no reference value (R12). -/
def reference (textMax regBase : Nat) : Impl where
  code := symtabRefCode
  modeCtrl := .neutral
  textMax := textMax
  tie := .up
  quant := truncThreshold
  regBase := regBase

/-- The reference value of the host's parameter (R12, R280). -/
def referenceHost (q : HostImpl) : HostImpl := { q with saveCompletes := true }

end Sys2Proof.Machine
end

