-- ==== Sys2Proof/Laws/Reference.lean ====
section
/-! SUPPORT. The reference values are what the spec says of them: the table has the properties of R140, and the reference
quantiser is `trunc0` (R16, R210). -/

namespace Sys2Proof.Machine

/-- `SYMTAB_REF` has the properties of R140. -/
theorem symtabRef_properties : SymtabProperties symtabRefCode where
  lat_distinct := by decide +kernel
  figs_codes := by decide +kernel
  figs_shared := by decide +kernel
  rus_codes := by decide +kernel
  rus_shared_ie := by decide +kernel
  rus_shared_sign := by decide +kernel
  six_codes := by decide +kernel
  six_unused := by decide +kernel
  lat_page := by decide +kernel
  figs_gaps := by decide +kernel

/-- The reference quantiser truncates toward zero (R210). -/
theorem quantReal_reference (m b : Nat) (r : ℝ) : quantReal (reference m b) r = trunc0 r := by
  have h1 := Int.floor_le r
  have h2 := Int.lt_floor_add_one r
  unfold quantReal trunc0
  by_cases hi : r = ⌊r⌋
  · rw [if_pos hi]
    split_ifs
    · rfl
    · rw [hi, Int.ceil_intCast, Int.floor_intCast]
  · have h3 : (⌊r⌋ : ℝ) < r := h1.lt_of_ne (Ne.symm hi)
    have h4 : ⌈r⌉ = ⌊r⌋ + 1 := Int.ceil_eq_iff.2 ⟨by push_cast; linarith, by push_cast; exact h2.le⟩
    rw [if_neg hi]
    by_cases h0 : 0 ≤ r
    · have : (0 : ℤ) ≤ ⌊r⌋ := Int.floor_nonneg.2 h0
      rw [if_pos h0, if_neg]
      simp only [reference, truncThreshold, if_pos this, realPast]
      intro h
      have := h 0
      push_cast at this
      linarith
    · have : ¬(0 : ℤ) ≤ ⌊r⌋ := fun h => h0 (Int.floor_nonneg.1 h)
      rw [if_neg h0, h4, if_pos]
      simp only [reference, truncThreshold, if_neg this, realPast]
      exact ⟨0, by push_cast; exact h3⟩

end Sys2Proof.Machine
end

