-- ==== Sys2Proof/Laws/Synth.lean ====
section
/-! SUPPORT. The spec lemmas of the synthesizer: everything SEG, the segments of the units and SYNTHESIZE can do, said
once, in the terms of `Safety.lean`. -/

namespace Sys2Proof.Machine

/-! ## Outcomes -/

@[simp] theorem onNext_next (s : State) (f : State → Outcome) : onNext (.next s) f = f s := rfl
@[simp] theorem onNext_fault (r : Fault) (f : State → Outcome) : onNext (.fault r) f = .fault r := rfl
@[simp] theorem onNext_refused (r : Refusal) (f : State → Outcome) : onNext (.refused r) f = .refused r := rfl
@[simp] theorem mapNext_next (s : State) (f : State → State) : mapNext (.next s) f = .next (f s) := rfl
@[simp] theorem mapNext_fault (r : Fault) (f : State → State) : mapNext (.fault r) f = .fault r := rfl
@[simp] theorem mapNext_refused (r : Refusal) (f : State → State) : mapNext (.refused r) f = .refused r := rfl

/-- Going on gives a next state only through a next state. -/
theorem onNext_eq_next {o : Outcome} {f : State → Outcome} {t : State} (h : onNext o f = .next t) :
    ∃ s, o = .next s ∧ f s = .next t := by
  cases o with
  | next s => exact ⟨s, rfl, h⟩
  | fault r => cases h
  | refused r => cases h

theorem mapNext_eq_next {o : Outcome} {f : State → State} {t : State} (h : mapNext o f = .next t) :
    ∃ s, o = .next s ∧ t = f s := by
  obtain ⟨s, hs, ht⟩ := onNext_eq_next h
  cases ht; exact ⟨s, hs, rfl⟩

/-! ## One segment -/

/-- SEG on operands of its domain (R198). -/
theorem seg_next (p : Impl) {f : BitVec 16} {d : Rat} (hf : f ≠ 0) (hd : 0 < d) (s : State) :
    seg p f d s = .next (runSegment p f d s) := by
  rw [seg, if_neg hf, if_neg (not_le.2 hd)]

/-- When SEG goes on, and to what (R198; log 21). -/
theorem seg_eq_next {p : Impl} {f : BitVec 16} {d : Rat} {s t : State} (h : seg p f d s = .next t) :
    f ≠ 0 ∧ 0 < d ∧ t = runSegment p f d s := by
  unfold seg at h
  split_ifs at h with h1 h2
  exact ⟨h1, not_le.1 h2, by cases h; rfl⟩

@[simp] theorem segmentSamples_length (p : Impl) (θ : Rat) (f : BitVec 16) (n : Nat) (v : Rat) :
    (segmentSamples p θ f n v).length = n := by simp [segmentSamples]

/-- Sample `i` of a segment (R198, R200). -/
theorem segmentSamples_getElem? (p : Impl) (θ : Rat) (f : BitVec 16) (n : Nat) (v : Rat) {i : Nat} (h : i < n) :
    (segmentSamples p θ f n v)[i]? = some (amp p (frac (θ + f.toNat * i / Config.sampleRate)) v) := by
  simp [segmentSamples, h]

/-- The samples of a segment are inside -16384 to 16384 (R199). -/
theorem segmentSamples_range (p : Impl) (θ : Rat) (f : BitVec 16) (n : Nat) {v : Rat} (h0 : 0 ≤ v) (h1 : v ≤ 1) :
    ∀ x ∈ segmentSamples p θ f n v, -16384 ≤ x.toInt ∧ x.toInt ≤ 16384 := by
  intro x hx
  obtain ⟨i, -, rfl⟩ := List.mem_map.1 hx
  rw [amp_toInt p _ h0 h1]
  exact ampInt_range p _ h0 h1

/-! ## The configuration -/

/-- No fatal condition: a positive baud rate and two positive frequencies (R191 to R193). -/
theorem fatalConfig_eq_none {c : SynParams} : fatalConfig c = none ↔ 0 < baudOf c ∧ c.markHz ≠ 0 ∧ c.spaceHz ≠ 0 := by
  unfold fatalConfig; split_ifs <;> simp_all

theorem volumeFraction_range (c : SynParams) : 0 ≤ volumeFraction c ∧ volumeFraction c ≤ 1 := clamp_range _ zero_le_one

/-- The durations are positive when the baud rate is (R195). -/
theorem fullUnit_pos {c : SynParams} (h : 0 < baudOf c) : 0 < fullUnit c := by
  unfold fullUnit; have : (0 : Rat) < baudOf c := by exact_mod_cast h
  positivity

theorem halfUnit_pos {c : SynParams} (h : 0 < baudOf c) : 0 < halfUnit c := by
  unfold halfUnit; have : (0 : Rat) < baudOf c := by exact_mod_cast h
  positivity

theorem unitDuration_pos {c : SynParams} (h : 0 < baudOf c) (u : UnitCode) : 0 < unitDuration c u := by
  unfold unitDuration; split
  · exact halfUnit_pos h
  · exact fullUnit_pos h

theorem unitFrequency_ne {c : SynParams} (hm : c.markHz ≠ 0) (hs : c.spaceHz ≠ 0) (u : UnitCode) :
    unitFrequency c u ≠ 0 := by unfold unitFrequency; split <;> assumption

theorem preDuration_pos : 0 < Config.preDuration := by norm_num [Config.preDuration]

/-- The segment of a unit that has a meaning (R191). -/
theorem unitSegment_next (p : Impl) {c : SynParams} (h : fatalConfig c = none) {u : UnitCode} (hu : u ≠ 0b11#2)
    (s : State) : unitSegment p c u s = .next (runSegment p (unitFrequency c u) (unitDuration c u) s) := by
  obtain ⟨hb, hm, hs⟩ := fatalConfig_eq_none.1 h
  rw [unitSegment, if_neg hu, seg_next p (unitFrequency_ne hm hs u) (unitDuration_pos hb u)]

theorem markTone_next (p : Impl) {c : SynParams} (h : fatalConfig c = none) (s : State) :
    markTone p c s = .next (runSegment p c.markHz Config.preDuration s) :=
  seg_next p (fatalConfig_eq_none.1 h).2.1 preDuration_pos s

/-! ## Lists of segments -/

@[simp] theorem phaseAfter_nil (θ : Rat) : phaseAfter θ [] = θ := rfl

@[simp] theorem phaseAfter_cons (θ : Rat) (g : Segment) (gs : List Segment) :
    phaseAfter θ (g :: gs) = phaseAfter (frac (θ + g.1.toNat * g.2)) gs := rfl

theorem phaseAfter_append (θ : Rat) (gs hs : List Segment) :
    phaseAfter θ (gs ++ hs) = phaseAfter (phaseAfter θ gs) hs := by
  induction gs generalizing θ with
  | nil => rfl
  | cons g gs ih => exact ih _

@[simp] theorem samplesOf_nil (p : Impl) (v θ : Rat) : samplesOf p v θ [] = [] := rfl

theorem samplesOf_append (p : Impl) (v θ : Rat) (gs hs : List Segment) :
    samplesOf p v θ (gs ++ hs) = samplesOf p v θ gs ++ samplesOf p v (phaseAfter θ gs) hs := by
  induction gs generalizing θ with
  | nil => rfl
  | cons g gs ih => simp [samplesOf, ih]

/-- The number of samples is the sum of the segments' counts, whatever the phase (R196). -/
theorem samplesOf_length (p : Impl) (v θ : Rat) (gs : List Segment) :
    (samplesOf p v θ gs).length = (gs.map fun g => sampleCount p g.2).sum := by
  induction gs generalizing θ with
  | nil => rfl
  | cons g gs ih => simp [samplesOf, ih]

theorem samplesOf_range (p : Impl) {v : Rat} (h0 : 0 ≤ v) (h1 : v ≤ 1) (θ : Rat) (gs : List Segment) :
    ∀ x ∈ samplesOf p v θ gs, -16384 ≤ x.toInt ∧ x.toInt ≤ 16384 := by
  induction gs generalizing θ with
  | nil => simp
  | cons g gs ih =>
    intro x hx
    rcases List.mem_append.1 hx with hx | hx
    · exact segmentSamples_range p _ _ _ h0 h1 x hx
    · exact ih _ x hx

/-- The phase stays a `Turn` (R212 a). -/
theorem phaseAfter_turn {θ : Rat} (h : 0 ≤ θ ∧ θ < 1) (gs : List Segment) :
    0 ≤ phaseAfter θ gs ∧ phaseAfter θ gs < 1 := by
  induction gs generalizing θ with
  | nil => exact h
  | cons g gs ih => exact ih (frac_turn _)

/-- The segments of the units, in full but for the working registers, of which only `V` and `SAMPLE_CNT` matter
afterwards (R191). -/
theorem unitSegments_next (p : Impl) {c : SynParams} (h : fatalConfig c = none) (units : List UnitCode)
    (hu : ∀ u ∈ units, u ≠ 0b11#2) (s : State) :
    ∃ y : SynRegs, y.v = s.syn.v ∧
      y.sampleCnt = s.syn.sampleCnt + (samplesOf p s.syn.v s.theta (unitList c units)).length ∧
      unitSegments p c units s = .next { s with
        pcm := s.pcm ++ samplesOf p s.syn.v s.theta (unitList c units)
        theta := phaseAfter s.theta (unitList c units)
        syn := y } := by
  induction units generalizing s with
  | nil => exact ⟨s.syn, rfl, by simp [unitList], by simp [unitSegments, unitList]⟩
  | cons u us ih =>
    have hu' := fun w hw => hu w (List.mem_cons_of_mem _ hw)
    obtain ⟨y, hv, hn, he⟩ := ih hu' (advanceUnit (runSegment p (unitFrequency c u) (unitDuration c u) s))
    refine ⟨y, hv, ?_, ?_⟩
    · rw [hn]; simp [unitList, samplesOf]; omega
    · rw [unitSegments, unitSegment_next p h (hu u (List.mem_cons_self ..)), mapNext_next, onNext_next, he]
      simp [unitList, samplesOf, advanceUnit, runSegment]

/-- Whether `S_CHECK` clamps the volume (R194). -/
def volumeOutside (c : SynParams) : Bool := volumeOf c < 0 || 100 < volumeOf c

theorem checkVolume_eq (c : SynParams) (s : State) : checkVolume c s = { s with
    volClamped := s.volClamped || volumeOutside c
    evt := s.evt ++ if volumeOutside c then [eventOf .invalidConfig (.config .volume (volumeOf c))] else [] } := by
  unfold checkVolume volumeOutside
  by_cases h : volumeOf c < 0 ∨ 100 < volumeOf c
  · rw [if_pos h]
    have hb : (decide (volumeOf c < 0) || decide (100 < volumeOf c)) = true := by simpa using h
    simp [hb, raise, errorEffect, errorKindOf, errorPayload, pushEvent, eventOf]
  · rw [if_neg h]
    have hb : (decide (volumeOf c < 0) || decide (100 < volumeOf c)) = false := by simpa using h
    simp [hb]

/-- The rest of `S_CHECK`, in full (R191, R194, R43). -/
theorem synthesizeEnter_eq (c : SynParams) (s : State) : synthesizeEnter c s = { s with
    volClamped := s.volClamped || volumeOutside c
    evt := s.evt ++ if volumeOutside c then [eventOf .invalidConfig (.config .volume (volumeOf c))] else []
    theta := 0
    syn := { s.syn with v := volumeFraction c, sampleCnt := 0, unitPos := 0 } } := by
  simp [synthesizeEnter, checkVolume_eq]

/-- SYNTHESIZE of units that have a meaning, with no fatal condition, in full (R191, R204). -/
theorem synthesizeUnits_ok (p : Impl) {c : SynParams} (h : fatalConfig c = none) (units : List UnitCode)
    (hu : ∀ u ∈ units, u ≠ 0b11#2) (s : State) :
    synthesizeUnits p units c s = .next { s with
      pcm := s.pcm ++ samplesOf p (volumeFraction c) 0 (segmentList c units)
      totalSamples := (samplesOf p (volumeFraction c) 0 (segmentList c units)).length
      result := .ok
      volClamped := s.volClamped || volumeOutside c
      evt := s.evt ++ if volumeOutside c then [eventOf .invalidConfig (.config .volume (volumeOf c))] else []
      theta := phaseAfter 0 (segmentList c units)
      syn := Config.freeSyn s.fresh
      fresh := s.fresh + 1 } := by
  obtain ⟨y, hv, hn, he⟩ :=
    unitSegments_next p h units hu (runSegment p c.markHz Config.preDuration (synthesizeEnter c s))
  unfold synthesizeUnits
  rw [h]
  simp only [markTone_next p h, onNext_next, he, mapNext_next]
  simp [synthesizeFinish, runSegment, synthesizeEnter, checkVolume_eq, segmentList, samplesOf, samplesOf_append,
    phaseAfter_append, hv, hn, Nat.add_assoc]

/-- SYNTHESIZE under a fatal condition takes that error and nothing else (R191, R308). -/
theorem synthesizeUnits_fatal (p : Impl) {c : SynParams} {e : ErrorKind} (h : fatalConfig c = some e)
    (units : List UnitCode) (s : State) : synthesizeUnits p units c s = .next (raise e s) := by
  unfold synthesizeUnits; rw [h]

end Sys2Proof.Machine
end

