-- ==== Sys2Proof/Laws/Sequencer.lean ====
section
/-! SUPPORT. What one move of the sequencer and one request of the host can do, said once. -/

namespace Sys2Proof.Machine

/-- The row of a character runs the character step for it (R157 to R159, R172). -/
theorem exec_symRow {r : SymRow} (h : r ∈ symRows) (s : State) :
    exec r.instr s = .next (encodeSymbol Config.impl r.elem (classOfRow Config.impl r.cls) s.cfg.verbose s) := by
  have all : symRows.Forall fun r => exec r.instr s =
      .next (encodeSymbol Config.impl r.elem (classOfRow Config.impl r.cls) s.cfg.verbose s) := by
    simp only [symRows, latRows, figRows, rusRows, otherRows, List.cons_append, List.nil_append, List.forall_cons]
    repeat' constructor
  exact List.forall_iff_forall_mem.1 all r h

/-- A body move is one turn of ENCODE's character loop, with the latched verbose flag (R151). -/
theorem bodyMove_some {s : State} {c : Elem} (h : s.txt[s.enc.txtPos]? = some c) :
    bodyMove s = .next (advanceText (encodeElem Config.impl s.cfg.verbose c s)) := by
  unfold bodyMove
  rw [h]
  simp only [decode, decodeElem, encodeElem]
  cases hr : rowOf (upper c) with
  | none => by_cases hs : isScalar (upper c) = true <;> simp [hs]
  | some r => simp [exec_symRow (rowOf_mem hr)]

/-- A data move is the segment of the next unit (R191). -/
theorem dataMove_some {s : State} {u : UnitCode} (h : s.bits[s.syn.unitPos]? = some u) :
    dataMove s = mapNext (unitSegment Config.impl s.cfg.params u s) advanceUnit := by
  unfold dataMove
  rw [h]
  have : u = 0 ∨ u = 1 ∨ u = 2 ∨ u = 3 := by clear h; revert u; decide
  rcases this with rfl | rfl | rfl | rfl <;> rfl

/-! ## One move at each position (R22, R151, R191, R250) -/

/-- The two characters of the fixed sequences are in the table (R134). -/
theorem fixedKeys_present : crKey.present = true ∧ lfKey.present = true := by decide

theorem move_idle {s : State} (h : s.phase = .idle) : sequencerMove s = .next s := by simp [sequencerMove, h]

theorem move_textEvent {s : State} (h : s.phase = .encoding (.textEvents 0)) :
    sequencerMove s = .next (goTo (.encoding (.textEvents 1)) (textEvent s.txt s)) := by
  simp [sequencerMove, h, textEventMove]

theorem move_encBegin {s : State} (h : s.phase = .encoding (.textEvents 1)) :
    sequencerMove s = .next (goTo (.encoding (.start 0)) (encodeBegin s)) := by simp [sequencerMove, h, textEventMove]

theorem startKey_present (k : Fin 3) : (startKey k).present = true := by revert k; decide

theorem closeKey_present (k : Fin 2) : (closeKey k).present = true := by revert k; decide

theorem move_start {s : State} {k : Fin 3} (h : s.phase = .encoding (.start k)) :
    sequencerMove s = .next (goTo (afterStart k) (emitKey Config.impl (startKey k) s)) := by
  simp [sequencerMove, h, exec, execEmit, startKey_present]

theorem move_body {s : State} (h : s.phase = .encoding .body) : sequencerMove s = bodyMove s := by
  simp [sequencerMove, h]

theorem bodyMove_none {s : State} (h : s.txt[s.enc.txtPos]? = none) :
    bodyMove s = .next (goTo (.encoding (.close 0)) s) := by unfold bodyMove; rw [h]

theorem move_close {s : State} {k : Fin 2} (h : s.phase = .encoding (.close k)) :
    sequencerMove s = .next (goTo (afterClose k) (emitKey Config.impl (closeKey k) s)) := by
  simp [sequencerMove, h, exec, execEmit, closeKey_present]

theorem move_summary {s : State} (h : s.phase = .encoding .summary) :
    sequencerMove s = .next (goTo (.synthesizing .check) (encodeFinish s)) := by simp [sequencerMove, h]

theorem move_check_fatal {s : State} {e : ErrorKind} (h : s.phase = .synthesizing .check)
    (hf : fatalConfig s.cfg.params = some e) : sequencerMove s = .next (raise e s) := by
  simp [sequencerMove, h, checkMove, hf]

theorem move_check_ok {s : State} (h : s.phase = .synthesizing .check) (hf : fatalConfig s.cfg.params = none) :
    sequencerMove s = .next (goTo (.synthesizing .pre) (synthesizeEnter s.cfg.params s)) := by
  simp [sequencerMove, h, checkMove, hf]

theorem move_pre {s : State} (h : s.phase = .synthesizing .pre) (hf : fatalConfig s.cfg.params = none) :
    sequencerMove s =
      .next (goTo (.synthesizing .data) (runSegment Config.impl s.cfg.params.markHz Config.preDuration s)) := by
  simp [sequencerMove, h, exec, execPre, markTone_next Config.impl hf]

theorem move_data {s : State} (h : s.phase = .synthesizing .data) : sequencerMove s = dataMove s := by
  simp [sequencerMove, h]

theorem dataMove_none {s : State} (h : s.bits[s.syn.unitPos]? = none) :
    dataMove s = .next (goTo (.synthesizing .post) s) := by unfold dataMove; rw [h]

theorem move_post {s : State} (h : s.phase = .synthesizing .post) (hf : fatalConfig s.cfg.params = none) :
    sequencerMove s =
      .next (goTo (.synthesizing .done) (runSegment Config.impl s.cfg.params.markHz Config.preDuration s)) := by
  simp [sequencerMove, h, exec, execPost, markTone_next Config.impl hf]

theorem move_done {s : State} (h : s.phase = .synthesizing .done) :
    sequencerMove s = .next (goTo .idle (synthesizeFinish s)) := by simp [sequencerMove, h]

/-! ## Requests -/

/-- What a request can do: it is decoded to an instruction the host may issue, and that instruction is run (R290). -/
theorem hostRequest_eq_next {c : Code} {s t : State} (h : hostRequest c s = .next t) :
    ∃ i, decode c = .ok i ∧ hostMayIssue i = true ∧ exec i s = .next t := by
  unfold hostRequest at h
  split at h
  · cases h
  · rename_i i hi
    split at h
    · exact ⟨i, hi, ‹_›, h⟩
    · cases h

/-! ## Runs -/

/-- The host's run is `runFor`. -/
theorem core_run (n : Nat) (s : State) : Host.Core.run core n s = runFor n s := by
  induction n generalizing s with
  | zero => rfl
  | succ n ih =>
    have h : Host.Core.run core (n + 1) s = onNext (step s) (Host.Core.run core n) := by
      simp only [Host.Core.run, onNext]
      cases h : core.step s with
      | next t => have h' : step s = .next t := h; simp only [h']
      | fault r => have h' : step s = .fault r := h; simp only [h']; rfl
      | refused r => have h' : step s = .refused r := h; simp only [h']; rfl
    rw [h, runFor, funext ih]

theorem runFor_add (m n : Nat) (s : State) : runFor (m + n) s = onNext (runFor m s) (runFor n) := by
  induction m generalizing s with
  | zero => simp [runFor]
  | succ m ih =>
    rw [Nat.succ_add, runFor, runFor]
    cases step s with
    | next t => simp [ih]
    | fault r => rfl
    | refused r => rfl

/-- With nothing pending the sequencer moves (log 2). -/
theorem step_sequencer {s : State} (h : s.inbox = []) : step s = sequencerMove s := by simp [step, h]

theorem runFor_succ {s t : State} (hi : s.inbox = []) (h : sequencerMove s = .next t) (n : Nat) :
    runFor (n + 1) s = runFor n t := by rw [runFor, step_sequencer hi, h, onNext_next]

/-- An idle machine with nothing pending stays as it is (log 30). -/
theorem runFor_idle {s : State} (hp : s.phase = .idle) (hi : s.inbox = []) (n : Nat) : runFor n s = .next s := by
  induction n with
  | zero => rfl
  | succ n ih => simp [runFor, step_sequencer hi, sequencerMove, hp, ih]

/-- The body moves run the character loop over the rest of the text (R151). -/
theorem runFor_body (l : List Elem) : ∀ {s : State}, s.phase = .encoding .body → s.inbox = [] →
    s.txt.drop s.enc.txtPos = l →
    runFor (l.length + 1) s =
      .next (goTo (.encoding (.close 0)) (encodeBody Config.impl s.cfg.verbose l s)) := by
  induction l with
  | nil =>
    intro s hp hi h
    have : s.txt[s.enc.txtPos]? = none := by simpa using h
    simp [runFor, step_sequencer hi, sequencerMove, hp, bodyMove, this, encodeBody]
  | cons c cs ih =>
    intro s hp hi h
    have h1 : s.txt[s.enc.txtPos]? = some c := by
      rw [← List.head?_drop, h]; rfl
    have h2 : s.txt.drop (s.enc.txtPos + 1) = cs := by rw [← List.tail_drop, h]; rfl
    rw [List.length_cons, runFor, step_sequencer hi, sequencerMove]
    simp only [hp, bodyMove_some h1, onNext_next]
    rw [ih]
    · simp [encodeBody]
    · simp [hp]
    · simp [hi]
    · simpa [encodeElem_eq] using h2

/-- The data moves run the segments of the rest of the units (R191). -/
theorem runFor_data (l : List UnitCode) : ∀ {s : State}, s.phase = .synthesizing .data → s.inbox = [] →
    fatalConfig s.cfg.params = none → (∀ u ∈ l, u ≠ 0b11#2) →
    s.bits.drop s.syn.unitPos = l →
    runFor (l.length + 1) s =
      mapNext (unitSegments Config.impl s.cfg.params l s) (goTo (.synthesizing .post)) := by
  induction l with
  | nil =>
    intro s hp hi hf hu h
    have : s.bits[s.syn.unitPos]? = none := by simpa using h
    simp [runFor, step_sequencer hi, sequencerMove, hp, dataMove, this, unitSegments]
  | cons c cs ih =>
    intro s hp hi hf hu h
    have h1 : s.bits[s.syn.unitPos]? = some c := by
      rw [← List.head?_drop, h]; rfl
    have h2 : s.bits.drop (s.syn.unitPos + 1) = cs := by rw [← List.tail_drop, h]; rfl
    rw [List.length_cons, runFor, step_sequencer hi, sequencerMove]
    simp only [hp, dataMove_some h1, unitSegment_next _ hf (hu c (by simp)), mapNext_next, onNext_next, unitSegments]
    rw [ih]
    · simp
    · simp [hp]
    · simp [hi]
    · simp [hf]
    · intro u hu'; exact hu u (by simp [hu'])
    · simpa using h2

end Sys2Proof.Machine
end

