-- ==== Sys2Proof/Tests/Reference.lean ====
section
/-! SUPPORT. What the tests are written with: the reference instance of the OPEN parameters, short forms for frames, texts
and configurations, a few states. Nothing of the model depends on them. -/

namespace Sys2Proof.Tests

open Sys2Proof.Machine

/-- The reference values (R12), with room for 1000 elements. -/
def ref : Impl := reference 1000 0

/-- The reference values with ties to even and another class of CR and LF. -/
def refEven (cls : SymClass) : Impl := { ref with modeCtrl := cls, tie := .even }

/-- A frame written as its first seven units; the half-stop follows. -/
def fr (n : Nat) : List UnitCode :=
  [BitVec.ofNat 2 (n / 1000000 % 10), BitVec.ofNat 2 (n / 100000 % 10), BitVec.ofNat 2 (n / 10000 % 10),
   BitVec.ofNat 2 (n / 1000 % 10), BitVec.ofNat 2 (n / 100 % 10), BitVec.ofNat 2 (n / 10 % 10),
   BitVec.ofNat 2 (n % 10), 0b10#2]

/-- Frames written so. -/
def frs (ns : List Nat) : List UnitCode := ns.flatMap fr

/-- A text from its scalar values. -/
def txt (ns : List Nat) : List Elem := ns.map (BitVec.ofNat 21)

/-- The default configuration at a volume (R42). -/
def cfgAt (baud mark space vol : Int) : SynParams :=
  { baudCb := BitVec.ofInt 32 baud, markHz := BitVec.ofInt 16 mark, spaceHz := BitVec.ofInt 16 space,
    volPct := BitVec.ofInt 8 vol }

/-- The reset state with the default configuration latched. -/
def sess : State := { State.reset with cfg := { params := cfgAt 4545 1170 1000 100, verbose := false } }

/-- The next state, or `s` itself on a stop. -/
def Outcome.getD (o : Outcome) (s : State) : State :=
  match o with
  | .next t => t
  | .fault _ => s
  | .refused _ => s

/-- The machine went on. -/
def Outcome.isNext (o : Outcome) : Bool :=
  match o with
  | .next _ => true
  | .fault _ => false
  | .refused _ => false

/-- The machine refused, for this reason. -/
def Outcome.refusal? (o : Outcome) : Option Refusal :=
  match o with
  | .next _ => none
  | .fault _ => none
  | .refused r => some r

end Sys2Proof.Tests
end

