-- ==== Sys2Proof/Tests/Slice0.lean ====
section
/-! SUPPORT. The model's own tests. The expected results are the spec's: `opcode_table.json`, the vectors V<n> and P<n> of
`95_test_vectors.md`, the examples of the rules. Operations are run with the reference values of the OPEN parameters,
`ref`. A sample is found by a first look at its bounds, which `Laws/Sine.lean` shows to be the sample. The last part
shows, for each obligation with hypotheses, values that meet them together. -/

namespace Sys2Proof.Tests

open Sys2Proof.Machine

set_option Elab.async false

/-! ## Decoding: every row, by the key, code, byte or kind the opcode table gives it -/

theorem test_decode_latin :
    decode (.elem 0x000041#21) = .ok .latA ∧ decode (.elem 0x000042#21) = .ok .latB ∧
    decode (.elem 0x000043#21) = .ok .latC ∧ decode (.elem 0x000044#21) = .ok .latD ∧
    decode (.elem 0x000045#21) = .ok .latE ∧ decode (.elem 0x000046#21) = .ok .latF ∧
    decode (.elem 0x000047#21) = .ok .latG ∧ decode (.elem 0x000048#21) = .ok .latH ∧
    decode (.elem 0x000049#21) = .ok .latI ∧ decode (.elem 0x00004A#21) = .ok .latJ ∧
    decode (.elem 0x00004B#21) = .ok .latK ∧ decode (.elem 0x00004C#21) = .ok .latL ∧
    decode (.elem 0x00004D#21) = .ok .latM ∧ decode (.elem 0x00004E#21) = .ok .latN ∧
    decode (.elem 0x00004F#21) = .ok .latO ∧ decode (.elem 0x000050#21) = .ok .latP ∧
    decode (.elem 0x000051#21) = .ok .latQ ∧ decode (.elem 0x000052#21) = .ok .latR ∧
    decode (.elem 0x000053#21) = .ok .latS ∧ decode (.elem 0x000054#21) = .ok .latT ∧
    decode (.elem 0x000055#21) = .ok .latU ∧ decode (.elem 0x000056#21) = .ok .latV ∧
    decode (.elem 0x000057#21) = .ok .latW ∧ decode (.elem 0x000058#21) = .ok .latX ∧
    decode (.elem 0x000059#21) = .ok .latY ∧ decode (.elem 0x00005A#21) = .ok .latZ :=
  ⟨rfl, rfl, rfl, rfl, rfl, rfl, rfl, rfl, rfl, rfl, rfl, rfl, rfl, rfl, rfl, rfl, rfl, rfl, rfl, rfl,
    rfl, rfl, rfl, rfl, rfl, rfl⟩

theorem test_decode_figures :
    decode (.elem 0x000030#21) = .ok .fig0 ∧ decode (.elem 0x000031#21) = .ok .fig1 ∧
    decode (.elem 0x000032#21) = .ok .fig2 ∧ decode (.elem 0x000033#21) = .ok .fig3 ∧
    decode (.elem 0x000034#21) = .ok .fig4 ∧ decode (.elem 0x000035#21) = .ok .fig5 ∧
    decode (.elem 0x000036#21) = .ok .fig6 ∧ decode (.elem 0x000037#21) = .ok .fig7 ∧
    decode (.elem 0x000038#21) = .ok .fig8 ∧ decode (.elem 0x000039#21) = .ok .fig9 ∧
    decode (.elem 0x00002D#21) = .ok .figMinus ∧ decode (.elem 0x00002B#21) = .ok .figPlus ∧
    decode (.elem 0x00003F#21) = .ok .figQuestion ∧ decode (.elem 0x00003A#21) = .ok .figColon ∧
    decode (.elem 0x000028#21) = .ok .figLeft ∧ decode (.elem 0x000029#21) = .ok .figRight ∧
    decode (.elem 0x00002E#21) = .ok .figDot ∧ decode (.elem 0x00002C#21) = .ok .figComma ∧
    decode (.elem 0x00002F#21) = .ok .figSlash ∧ decode (.elem 0x000428#21) = .ok .figSha ∧
    decode (.elem 0x000429#21) = .ok .figShcha ∧ decode (.elem 0x00042D#21) = .ok .figE ∧
    decode (.elem 0x00042E#21) = .ok .figYu ∧ decode (.elem 0x000427#21) = .ok .figChe :=
  ⟨rfl, rfl, rfl, rfl, rfl, rfl, rfl, rfl, rfl, rfl, rfl, rfl, rfl, rfl, rfl, rfl, rfl, rfl, rfl, rfl,
    rfl, rfl, rfl, rfl⟩

theorem test_decode_cyrillic :
    decode (.elem 0x000410#21) = .ok .rusA ∧ decode (.elem 0x000411#21) = .ok .rusBe ∧
    decode (.elem 0x000412#21) = .ok .rusVe ∧ decode (.elem 0x000413#21) = .ok .rusGhe ∧
    decode (.elem 0x000414#21) = .ok .rusDe ∧ decode (.elem 0x000415#21) = .ok .rusIe ∧
    decode (.elem 0x000416#21) = .ok .rusZhe ∧ decode (.elem 0x000417#21) = .ok .rusZe ∧
    decode (.elem 0x000418#21) = .ok .rusI ∧ decode (.elem 0x000419#21) = .ok .rusShortI ∧
    decode (.elem 0x00041A#21) = .ok .rusKa ∧ decode (.elem 0x00041B#21) = .ok .rusEl ∧
    decode (.elem 0x00041C#21) = .ok .rusEm ∧ decode (.elem 0x00041D#21) = .ok .rusEn ∧
    decode (.elem 0x00041E#21) = .ok .rusO ∧ decode (.elem 0x00041F#21) = .ok .rusPe ∧
    decode (.elem 0x000420#21) = .ok .rusEr ∧ decode (.elem 0x000421#21) = .ok .rusEs ∧
    decode (.elem 0x000422#21) = .ok .rusTe ∧ decode (.elem 0x000423#21) = .ok .rusU ∧
    decode (.elem 0x000424#21) = .ok .rusEf ∧ decode (.elem 0x000425#21) = .ok .rusHa ∧
    decode (.elem 0x000426#21) = .ok .rusTse ∧ decode (.elem 0x00042A#21) = .ok .rusHard ∧
    decode (.elem 0x00042B#21) = .ok .rusYeru ∧ decode (.elem 0x00042C#21) = .ok .rusSoft ∧
    decode (.elem 0x00042F#21) = .ok .rusYa ∧ decode (.elem 0x000401#21) = .ok .rusIo :=
  ⟨rfl, rfl, rfl, rfl, rfl, rfl, rfl, rfl, rfl, rfl, rfl, rfl, rfl, rfl, rfl, rfl, rfl, rfl, rfl, rfl,
    rfl, rfl, rfl, rfl, rfl, rfl, rfl, rfl⟩

theorem test_decode_others :
    decode (.elem 0x000020#21) = .ok .sp ∧ decode (.elem 0x00000D#21) = .ok .cr ∧
    decode (.elem 0x00000A#21) = .ok .lf ∧ decode (.marker 0#2) = .ok .markLat ∧
    decode (.marker 1#2) = .ok .markFigs ∧ decode (.marker 2#2) = .ok .markRus :=
  ⟨rfl, rfl, rfl, rfl, rfl, rfl⟩

/-- The kinds, tags and payloads of R108. -/
theorem test_decode_events :
    decode (.evt 0x01#8 0b10#2 (.text (txt [0x43]))) = .ok (.evText (txt [0x43])) ∧
    decode (.evt 0x02#8 0b00#2 .none) = .ok (.evEncBegin) ∧
    decode (.evt 0x03#8 0b00#2 (.charCode 0x41#21 (code5 11000))) = .ok (.evChar 0x41#21 (code5 11000)) ∧
    decode (.evt 0x04#8 0b01#2 (.char 0x20AC#21)) = .ok (.evUnsupported 0x20AC#21) ∧
    decode (.evt 0x05#8 0b00#2 (.count 56)) = .ok (.evEncSummary 56) ∧
    decode (.evt 0x06#8 0b01#2 .none) = .ok (.evEmptyInput) ∧
    decode (.evt 0x07#8 0b01#2 (.config .baud (-4545))) = .ok (.evInvalidConfig .baud (-4545)) ∧
    decode (.evt 0x10#8 0b00#2 .none) = .ok (.evPlaybackFinished) ∧
    decode (.evt 0x11#8 0b00#2 .none) = .ok (.evTxComplete) ∧
    decode (.evt 0x12#8 0b00#2 .none) = .ok (.evTxStopped) ∧
    decode (.evt 0x13#8 0b01#2 .none) = .ok (.evDeviceFail) ∧
    decode (.evt 0x14#8 0b01#2 (.text [])) = .ok (.evPersistFail []) ∧
    decode (.evt 0x15#8 0b00#2 (.text [])) = .ok (.evSaved []) :=
  ⟨rfl, rfl, rfl, rfl, rfl, rfl, rfl, rfl, rfl, rfl, rfl, rfl, rfl⟩

/-- Codes that are no instruction, each rejected by its name (R23, R62, R71, R108, R111, V12). -/
theorem test_decode_rejects :
    decode (.elem 0x20AC#21) = .rejected (.notInTable 0x20AC#21) ∧
    decode (.elem 0x61#21) = .rejected (.notInTable 0x61#21) ∧
    decode (.elem 0x451#21) = .rejected (.notInTable 0x451#21) ∧
    decode (.elem 0xD800#21) = .rejected (.notScalar) ∧
    decode (.elem 0x110000#21) = .rejected (.notScalar) ∧
    decode (.marker 0b11#2) = .rejected (.reservedMode) ∧
    decode (.regRd 9) = .rejected (.noSuchRegister 9) ∧
    decode (.regWr 9 0) = .rejected (.noSuchRegister 9) ∧
    decode (.txtWr (txt [0xDFFF])) = .rejected (.notScalar) ∧
    decode (.evt 0x00#8 0b00#2 .none) = .rejected (.reservedKind 0x00#8) ∧
    decode (.evt 0x16#8 0b00#2 .none) = .rejected (.reservedKind 0x16#8) ∧
    decode (.evt 0x02#8 0b01#2 .none) = .rejected (.wrongTag) ∧
    decode (.evt 0x02#8 0b00#2 (.count 1)) = .rejected (.wrongPayload) ∧
    decode (.call (.emit (.char 0x20AC#21))) = .rejected (.badOperand) :=
  ⟨rfl, rfl, rfl, rfl, rfl, rfl, rfl, rfl, rfl, rfl, rfl, rfl, rfl, rfl⟩

theorem test_decode_units :
    decode (.unit 0b00#2) = .ok (.u0) ∧
    decode (.unit 0b01#2) = .ok (.u1) ∧
    decode (.unit 0b10#2) = .ok (.uh) ∧
    decode (.unit 0b11#2) = .ok (.unitReserved) :=
  ⟨rfl, rfl, rfl, rfl⟩

theorem test_decode_commands :
    decode (.cmd 0x00#8) = .ok (.nop) ∧
    decode (.cmd 0x01#8) = .ok (.start) ∧
    decode (.cmd 0x02#8) = .ok (.stop) ∧
    decode (.cmd 0x03#8) = .ok (.cmdReserved 0x03#8) ∧
    decode (.cmd 0xFF#8) = .ok (.cmdReserved 0xFF#8) :=
  ⟨rfl, rfl, rfl, rfl, rfl⟩

theorem test_decode_transactions :
    decode (.pseudo .startSeq) = .ok (.startSeq) ∧
    decode (.pseudo .closeSeq) = .ok (.closeSeq) ∧
    decode (.pseudo .pre) = .ok (.pre) ∧
    decode (.pseudo .post) = .ok (.post) ∧
    decode (.regRd 8) = .ok (.regRd 8) ∧
    decode (.regWr 0 1) = .ok (.regWr 0 1) ∧
    decode (.txtWr (txt [0x43])) = .ok (.txtWr (txt [0x43])) ∧
    decode (.reset) = .ok (.reset) :=
  ⟨rfl, rfl, rfl, rfl, rfl, rfl, rfl, rfl⟩

theorem test_decode_calls :
    decode (.call (.encode (txt [0x43]) true)) = .ok (.encode (txt [0x43]) true) ∧
    decode (.call (.synthesize [0b00#2] (cfgAt 1 1 1 1))) = .ok (.synthesize [0b00#2] (cfgAt 1 1 1 1)) ∧
    decode (.call .grd) = .ok (.grd) ∧
    decode (.call (.lookup (.marker .rus))) = .ok (.lookup (.marker .rus)) ∧
    decode (.call (.upper 0x61#21)) = .ok (.upper 0x61#21) ∧
    decode (.call (.modeOf (.char 0x428#21))) = .ok (.modeOf (.char 0x428#21)) ∧
    decode (.call (.emit (.char 0x0D#21))) = .ok (.emit (.char 0x0D#21)) ∧
    decode (.call (.seg 1170 (3 / 10))) = .ok (.seg 1170 (3 / 10)) ∧
    decode (.call (.amp (1 / 4) 1)) = .ok (.amp (1 / 4) 1) :=
  ⟨rfl, rfl, rfl, rfl, rfl, rfl, rfl, by decide +kernel, by decide +kernel⟩

/-- A bare table word is a byte written to `CMD` (log 4). -/
theorem test_decode_table_words :
    decodeTableWord 8 0x00 = some .nop ∧ decodeTableWord 8 0x01 = some .start ∧ decodeTableWord 8 0x02 = some .stop ∧
      decodeTableWord 8 0x7F = some (.cmdReserved 0x7F#8) ∧ decodeTableWord 16 0x01 = none := by decide +kernel

/-! ## Frames: `abcde_ref` and `frame_ref` of the opcode table -/

theorem test_frames_1 :
    frame (symtabRefCode (.char 0x0041#21)) = fr 0110001 ∧ frame (symtabRefCode (.char 0x0042#21)) = fr 0100111 ∧
    frame (symtabRefCode (.char 0x0043#21)) = fr 0011101 ∧ frame (symtabRefCode (.char 0x0044#21)) = fr 0100101 ∧
    frame (symtabRefCode (.char 0x0045#21)) = fr 0100001 ∧ frame (symtabRefCode (.char 0x0046#21)) = fr 0101101 ∧
    frame (symtabRefCode (.char 0x0047#21)) = fr 0010111 ∧ frame (symtabRefCode (.char 0x0048#21)) = fr 0001011 ∧
    frame (symtabRefCode (.char 0x0049#21)) = fr 0011001 ∧ frame (symtabRefCode (.char 0x004A#21)) = fr 0110101 ∧
    frame (symtabRefCode (.char 0x004B#21)) = fr 0111101 ∧ frame (symtabRefCode (.char 0x004C#21)) = fr 0010011 ∧
    frame (symtabRefCode (.char 0x004D#21)) = fr 0001111 ∧ frame (symtabRefCode (.char 0x004E#21)) = fr 0001101 ∧
    frame (symtabRefCode (.char 0x004F#21)) = fr 0000111 ∧ frame (symtabRefCode (.char 0x0050#21)) = fr 0011011 ∧
    frame (symtabRefCode (.char 0x0051#21)) = fr 0111011 ∧ frame (symtabRefCode (.char 0x0052#21)) = fr 0010101 ∧
    frame (symtabRefCode (.char 0x0053#21)) = fr 0101001 ∧ frame (symtabRefCode (.char 0x0054#21)) = fr 0000011 ∧
    frame (symtabRefCode (.char 0x0055#21)) = fr 0111001 :=
  ⟨rfl, rfl, rfl, rfl, rfl, rfl, rfl, rfl, rfl, rfl, rfl, rfl, rfl, rfl, rfl, rfl, rfl, rfl, rfl, rfl, rfl⟩

theorem test_frames_2 :
    frame (symtabRefCode (.char 0x0056#21)) = fr 0011111 ∧ frame (symtabRefCode (.char 0x0057#21)) = fr 0110011 ∧
    frame (symtabRefCode (.char 0x0058#21)) = fr 0101111 ∧ frame (symtabRefCode (.char 0x0059#21)) = fr 0101011 ∧
    frame (symtabRefCode (.char 0x005A#21)) = fr 0100011 ∧ frame (symtabRefCode (.char 0x0030#21)) = fr 0011011 ∧
    frame (symtabRefCode (.char 0x0031#21)) = fr 0111011 ∧ frame (symtabRefCode (.char 0x0032#21)) = fr 0110011 ∧
    frame (symtabRefCode (.char 0x0033#21)) = fr 0100001 ∧ frame (symtabRefCode (.char 0x0034#21)) = fr 0010101 ∧
    frame (symtabRefCode (.char 0x0035#21)) = fr 0000011 ∧ frame (symtabRefCode (.char 0x0036#21)) = fr 0101011 ∧
    frame (symtabRefCode (.char 0x0037#21)) = fr 0111001 ∧ frame (symtabRefCode (.char 0x0038#21)) = fr 0011001 ∧
    frame (symtabRefCode (.char 0x0039#21)) = fr 0000111 ∧ frame (symtabRefCode (.char 0x002D#21)) = fr 0110001 ∧
    frame (symtabRefCode (.char 0x002B#21)) = fr 0100011 ∧ frame (symtabRefCode (.char 0x003F#21)) = fr 0100111 ∧
    frame (symtabRefCode (.char 0x003A#21)) = fr 0011101 ∧ frame (symtabRefCode (.char 0x0028#21)) = fr 0111101 ∧
    frame (symtabRefCode (.char 0x0029#21)) = fr 0010011 :=
  ⟨rfl, rfl, rfl, rfl, rfl, rfl, rfl, rfl, rfl, rfl, rfl, rfl, rfl, rfl, rfl, rfl, rfl, rfl, rfl, rfl, rfl⟩

theorem test_frames_3 :
    frame (symtabRefCode (.char 0x002E#21)) = fr 0001111 ∧ frame (symtabRefCode (.char 0x002C#21)) = fr 0001101 ∧
    frame (symtabRefCode (.char 0x002F#21)) = fr 0101111 ∧ frame (symtabRefCode (.char 0x0428#21)) = fr 0010111 ∧
    frame (symtabRefCode (.char 0x0429#21)) = fr 0001011 ∧ frame (symtabRefCode (.char 0x042D#21)) = fr 0101101 ∧
    frame (symtabRefCode (.char 0x042E#21)) = fr 0110101 ∧ frame (symtabRefCode (.char 0x0427#21)) = fr 0010101 ∧
    frame (symtabRefCode (.char 0x0410#21)) = fr 0110001 ∧ frame (symtabRefCode (.char 0x0411#21)) = fr 0100111 ∧
    frame (symtabRefCode (.char 0x0412#21)) = fr 0110011 ∧ frame (symtabRefCode (.char 0x0413#21)) = fr 0010111 ∧
    frame (symtabRefCode (.char 0x0414#21)) = fr 0100101 ∧ frame (symtabRefCode (.char 0x0415#21)) = fr 0100001 ∧
    frame (symtabRefCode (.char 0x0416#21)) = fr 0011111 ∧ frame (symtabRefCode (.char 0x0417#21)) = fr 0100011 ∧
    frame (symtabRefCode (.char 0x0418#21)) = fr 0011001 ∧ frame (symtabRefCode (.char 0x0419#21)) = fr 0110101 ∧
    frame (symtabRefCode (.char 0x041A#21)) = fr 0111101 ∧ frame (symtabRefCode (.char 0x041B#21)) = fr 0010011 ∧
    frame (symtabRefCode (.char 0x041C#21)) = fr 0001111 :=
  ⟨rfl, rfl, rfl, rfl, rfl, rfl, rfl, rfl, rfl, rfl, rfl, rfl, rfl, rfl, rfl, rfl, rfl, rfl, rfl, rfl, rfl⟩

theorem test_frames_4 :
    frame (symtabRefCode (.char 0x041D#21)) = fr 0001101 ∧ frame (symtabRefCode (.char 0x041E#21)) = fr 0000111 ∧
    frame (symtabRefCode (.char 0x041F#21)) = fr 0011011 ∧ frame (symtabRefCode (.char 0x0420#21)) = fr 0010101 ∧
    frame (symtabRefCode (.char 0x0421#21)) = fr 0101001 ∧ frame (symtabRefCode (.char 0x0422#21)) = fr 0000011 ∧
    frame (symtabRefCode (.char 0x0423#21)) = fr 0111001 ∧ frame (symtabRefCode (.char 0x0424#21)) = fr 0101101 ∧
    frame (symtabRefCode (.char 0x0425#21)) = fr 0001011 ∧ frame (symtabRefCode (.char 0x0426#21)) = fr 0011101 ∧
    frame (symtabRefCode (.char 0x042A#21)) = fr 0101111 ∧ frame (symtabRefCode (.char 0x042B#21)) = fr 0101011 ∧
    frame (symtabRefCode (.char 0x042C#21)) = fr 0101111 ∧ frame (symtabRefCode (.char 0x042F#21)) = fr 0111011 ∧
    frame (symtabRefCode (.char 0x0401#21)) = fr 0100001 ∧ frame (symtabRefCode (.char 0x0020#21)) = fr 0001001 ∧
    frame (symtabRefCode (.char 0x000D#21)) = fr 0000101 ∧ frame (symtabRefCode (.char 0x000A#21)) = fr 0010001 ∧
    frame (symtabRefCode (.marker .lat)) = fr 0111111 ∧ frame (symtabRefCode (.marker .figs)) = fr 0110111 ∧
    frame (symtabRefCode (.marker .rus)) = fr 0000001 :=
  ⟨rfl, rfl, rfl, rfl, rfl, rfl, rfl, rfl, rfl, rfl, rfl, rfl, rfl, rfl, rfl, rfl, rfl, rfl, rfl, rfl, rfl⟩

/-- R99: a frame is cut out of the units without knowing the mode. -/
theorem test_parse_frames :
    parseFrames 3 (frs [0111111, 0000101, 0010001]) = some [code5 11111, code5 00010, code5 01000] ∧
      parseFrame [0b01#2, 0b00#2, 0b00#2, 0b00#2, 0b00#2, 0b00#2, 0b01#2, 0b10#2] = none := by decide +kernel

/-! ## Well-formedness: an ill-formed term for each check, refused -/

theorem test_wellFormed_refuses :
    Instr.wellFormed (.cmdReserved 0x02#8) = false ∧ Instr.wellFormed (.regRd 9) = false ∧
    Instr.wellFormed (.regWr 9 0) = false ∧ Instr.wellFormed (.txtWr (txt [0xD800])) = false ∧
    Instr.wellFormed (.encode (txt [0x110000]) false) = false ∧ Instr.wellFormed (.lookup (.char 0xD800#21)) = false ∧
    Instr.wellFormed (.upper 0xDFFF#21) = false ∧ Instr.wellFormed (.modeOf (.char 0xD800#21)) = false ∧
    Instr.wellFormed (.emit (.char 0x61#21)) = false ∧
    Instr.wellFormed (.seg 0 1) = false ∧ Instr.wellFormed (.seg 1 0) = false ∧
    Instr.wellFormed (.evText (txt [0xD800])) = false ∧ Instr.wellFormed (.evChar 0xD800#21 (code5 0)) = false ∧
    Instr.wellFormed (.evUnsupported 0x110000#21) = false ∧ Instr.wellFormed (.evPersistFail (txt [0xD800])) = false ∧
    Instr.wellFormed (.evSaved (txt [0xD800])) = false := by
  decide +kernel

theorem test_wellFormed_accepts :
    Instr.wellFormed (.cmdReserved 0x03#8) = true ∧ Instr.wellFormed (.regRd 8) = true ∧
    Instr.wellFormed (.regWr 0 1) = true ∧ Instr.wellFormed (.txtWr (txt [0x1F600])) = true ∧
    Instr.wellFormed (.emit (.marker .figs)) = true ∧ Instr.wellFormed (.seg 65535 1) = true ∧
    Instr.wellFormed (.modeOf (.marker .lat)) = true ∧ Instr.wellFormed (.amp (-1) 2) = true ∧
    Instr.wellFormed (.lookup (.char 0x20AC#21)) = true ∧
    Instr.wellFormed (.latA) = true ∧ Instr.wellFormed (.nop) = true := by
  decide +kernel

/-! ## The Symbol Table -/

/-- V11, V12. -/
theorem test_lookup :
    lookup ref (.char 0x41#21) = some (code5 11000) ∧ lookup ref (.char 0x42F#21) = some (code5 11101) ∧
      lookup ref (.marker .rus) = some (code5 00000) ∧
      [0x20AC, 0x61, 0x27, 0x3D, 0x21, 0x09, 0x00, 0xDF, 0x451, 0x1F600].all
        (fun n => lookup ref (.char (BitVec.ofNat 21 n)) == none) = true := by decide +kernel

/-- V13. -/
theorem test_upper :
    (txt [0x61, 0x7A, 0x430, 0x44F, 0x451, 0x41, 0x31, 0xDF, 0xE9, 0x131, 0x20AC]).map upper =
      txt [0x41, 0x5A, 0x410, 0x42F, 0x401, 0x41, 0x31, 0xDF, 0xE9, 0x131, 0x20AC] := by decide +kernel

/-- V14, and R130: "not found". -/
theorem test_modeOf :
    (txt [0x51, 0x37, 0x2F, 0x427, 0x428, 0x416, 0x401, 0x20, 0x0D, 0x20AC]).map (fun c => classOf ref (.char c)) =
      [some (.mode .lat), some (.mode .figs), some (.mode .figs), some (.mode .figs), some (.mode .figs),
       some (.mode .rus), some (.mode .rus), some .neutral, some .neutral, none] := by decide +kernel

/-- R133, R199: MODEOF of a marker and AMP outside its domain run, each with a free value. -/
theorem test_free_answers :
    Outcome.isNext (step { sess with inbox := [.request (.call (.modeOf (.marker .rus)))] }) = true ∧
      (Outcome.getD (step { sess with inbox := [.request (.call (.amp 1 2))] }) sess).fresh = 1 := ⟨rfl, rfl⟩

/-- R140. -/
theorem test_reference_codes : SymtabProperties ref.code := symtabRef_properties

/-! ## ENCODE -/

/-- V1. -/
theorem test_encode_CQ :
    let t := encodeText ref (txt [0x43, 0x51]) false sess
    t.bits = frs [0111111, 0000101, 0010001, 0011101, 0111011, 0000101, 0010001] ∧ t.totalUnits = 56 ∧
      t.mode = .lat := by decide +kernel

/-- V2, V30: an unsupported character between two characters, with the verbose events. -/
theorem test_encode_unsupported :
    let t := encodeText ref (txt [0x41, 0x20AC, 0x42]) true sess
    t.evt = [⟨.text, .highlight, .text (txt [0x41, 0x20AC, 0x42])⟩, ⟨.encBegin, .info, .none⟩,
      ⟨.char, .info, .charCode 0x41#21 (code5 11000)⟩, ⟨.unsupported, .warn, .char 0x20AC#21⟩,
      ⟨.char, .info, .charCode 0x42#21 (code5 10011)⟩, ⟨.encSummary, .info, .count 56⟩] ∧ t.unsupSeen = true ∧
      t.bits = (encodeText ref (txt [0x41, 0x42]) false sess).bits := by decide +kernel

/-- V4, V7, and ENCODE of the empty text (R150). -/
theorem test_encode_neutral_and_empty :
    (encodeText ref (txt [0x41, 0x20, 0x42]) false sess).bits =
        frs [0111111, 0000101, 0010001, 0110001, 0001001, 0100111, 0000101, 0010001] ∧
      (encodeText ref (txt [0x20AC, 0x20AC]) false sess).bits = frs [0111111, 0000101, 0010001, 0000101, 0010001] ∧
      (encodeText ref [] false sess).totalUnits = 40 := by decide +kernel

/-- P4: three modes, spaces, folding, a Cyrillic letter of `FIGS`. -/
theorem test_encode_three_modes :
    let t := encodeText ref (txt [0x61, 0x62, 0x20, 0x31, 0x32, 0x20, 0x448, 0x44F]) false sess
    t.bits = frs [0111111, 0000101, 0010001, 0110001, 0100111, 0001001, 0110111, 0111011, 0110011, 0001001, 0010111,
      0000001, 0111011, 0000101, 0010001] ∧ t.totalUnits = 120 ∧ t.mode = .rus := by decide +kernel

/-- V29: the class of LF inside the text. -/
theorem test_encode_control_class :
    ([.neutral, .mode .lat, .mode .figs] : List SymClass).map
      (fun cls => (encodeText (refEven cls) (txt [0x31, 0x0A, 0x32]) false sess).totalUnits) = [72, 88, 72] ∧
    textSymbols (refEven (.mode .lat)) (txt [0x31, 0x0A, 0x32]) =
      [.marker .lat, crKey, lfKey, .marker .figs, .char 0x31#21, .marker .lat, lfKey, .marker .figs, .char 0x32#21,
       crKey, lfKey] := by decide +kernel

/-- V47. -/
theorem test_unit_count :
    (encodeText ref (txt [0x63, 0x71, 0x20, 0x63, 0x71, 0x20, 0x64, 0x65, 0x20, 0x72, 0x75, 0x30, 0x61, 0x6F, 0x67])
      false sess).totalUnits = 176 ∧
    switches ref .lat (txt [0x41, 0x20, 0x31, 0x20, 0x42]) = 2 := by decide +kernel

/-- R167 (a), (b): each supported character by itself, the examples, the empty text. -/
theorem test_R167_frames :
    (symRows.map fun r => [r.elem]).all (eightUnitsPerSymbol ref) = true ∧
      [[], txt [0x20AC, 0x20AC], txt [0x43, 0x51], txt [0x41, 0x20, 0x42], txt [0x416, 0x428, 0x31]].all
        (fun t => eightUnitsPerSymbol ref t && beginsAndEnds ref t) = true := by decide +kernel

/-- R167 (c): two characters of the three modes, in every order. -/
theorem test_R167_switches :
    (txt [0x41, 0x62, 0x31, 0x428, 0x44F, 0x416]).all (fun c =>
      (txt [0x41, 0x62, 0x31, 0x428, 0x44F, 0x416]).all (switchMinimal ref c)) = true := by decide +kernel

/-- R167 (d), (e). -/
theorem test_R167_space_and_unsupported :
    (txt [0x41, 0x31, 0x416]).all (spaceNeutral ref) = true ∧
      [txt [0x20AC], txt [0x20AC, 0x20AC], txt [0x7E, 0x09, 0x20AC]].all (unsupportedOnly ref) = true := by decide +kernel

/-! ## The guard, START, the registers -/

/-- V5, V6, V55. -/
theorem test_blank :
    [[], txt [0x20, 0x20, 0x20], txt [0x0D, 0x0A], txt [0x09]].all blank = true ∧ blank (txt [0xA0]) = false ∧
      blank (txt [0x20, 0x0A, 0x20, 0x41]) = false := by decide +kernel

/-- R241, R242: START from reset with no text. -/
theorem test_start_blank :
    let t := Outcome.getD (exec .start State.reset) sess
    t.phase = .idle ∧ statusWord t = 0x08#8 ∧ t.evt = [⟨.emptyInput, .warn, .none⟩] ∧ t.bits = [] := by decide +kernel

/-- R241, R34: START with a text enters the encoder with the configuration latched. -/
theorem test_start_text :
    let t := Outcome.getD (exec .start { State.reset with txt := txt [0x43], pcm := [1], result := .ok }) sess
    t.phase = .encoding (.textEvents 0) ∧ statusWord t = 0x01#8 ∧ t.pcm = [] ∧ t.cfg.params = cfgAt 4545 1170 1000 0 := by
  decide +kernel

/-- V51: START while busy; R346: TXTWR while busy; R112, R96: the reserved values. -/
theorem test_refusals :
    Outcome.refusal? (exec .start { sess with phase := .synthesizing .data }) = some .startWhileBusy ∧
      Outcome.refusal? (exec (.txtWr []) { sess with phase := .encoding .body }) = some .textWriteWhileBusy ∧
      Outcome.refusal? (exec (.cmdReserved 0x03#8) sess) = some (.reservedCommand 0x03#8) ∧
      Outcome.refusal? (exec .unitReserved sess) = some .reservedUnit ∧
      Outcome.refusal? (exec (.regRd 9) sess) = some (.noSuchRegister 9) := by decide +kernel

/-- V57. -/
theorem test_status :
    ([(.ok, false, false, 0x04), (.ok, false, true, 0x44), (.ok, true, false, 0x24), (.ok, true, true, 0x64),
      (.emptyInput, false, false, 0x08), (.invalidConfig, false, false, 0x0C), (.invalidConfig, false, true, 0x4C)] :
      List (Result × Bool × Bool × BitVec 8)).all (fun x =>
        statusWord { sess with result := x.1, volClamped := x.2.1, unsupSeen := x.2.2.1 } == x.2.2.2) = true := by decide +kernel

/-- R247, P3: REGWR of a configuration register, truncated; `CTRL` bits 7:1 do not stick; STATUS is read-only. -/
theorem test_register_writes :
    (Outcome.getD (exec (.regWr 2 0x1FFFFEE3F#64) sess) sess).baudCb = BitVec.ofInt 32 (-4545) ∧
      (Outcome.getD (exec (.regWr 6 0xFF#64) sess) sess).ret = .none ∧
      ctrlWord (Outcome.getD (exec (.regWr 6 0xFF#64) sess) sess) = 0x01#8 ∧
      Outcome.getD (exec (.regWr 1 0xFF#64) sess) State.reset = sess := by decide +kernel

/-- R247: REGRD returns the bits and changes nothing else. -/
theorem test_register_read :
    Outcome.getD (exec (.regRd 2) sess) sess = { sess with ret := .reg 2 4545 } := by decide +kernel

/-- V56. -/
theorem test_reset :
    let s : State := { sess with phase := .synthesizing .data, baudCb := 1, pcm := [1], totalUnits := 56 }
    let t := Outcome.getD (exec .reset { s with evt := [⟨.encBegin, .info, .none⟩] }) sess
    statusWord t = 0x00#8 ∧ t.baudCb = 4545 ∧ t.totalUnits = 0 ∧ t.pcm = [] ∧ t.evt = [] := by decide +kernel

/-! ## Segments and samples -/

/-- V33: the counts of a full and of a half unit, ties up. -/
theorem test_sample_counts :
    [4545, 5000, 7500, 10000, 11000, 15000, 30000].map (fun (b : Int) =>
      (sampleCount ref (fullUnit (cfgAt b 1 1 1)), sampleCount ref (halfUnit (cfgAt b 1 1 1)))) =
      [(970, 485), (882, 441), (588, 294), (441, 221), (401, 200), (294, 147), (147, 74)] := by decide +kernel

/-- R196, V41: the tie. -/
theorem test_round_tie :
    [roundTie .up (441 / 2), roundTie .even (441 / 2), roundTie .up (147 / 2), roundTie .even (147 / 2)] =
      [221, 220, 74, 74] := by decide +kernel

/-- P1, R197: the first samples of the preamble. -/
theorem test_preamble_samples :
    segmentSamples ref 0 1170 8 1 = [0, 2718, 5361, 7855, 10132, 12128, 13787, 15065].map (BitVec.ofInt 16) :=
  segmentSamples_of_looks (by decide +kernel)

/-- V35, V36, V48: the volume, and frequencies at a quarter and at three quarters of the sample rate. -/
theorem test_volume_and_alias :
    segmentSamples ref 0 1170 5 (1 / 2) = [0, 1359, 2680, 3927, 5066].map (BitVec.ofInt 16) ∧
      segmentSamples ref 0 1170 5 (1 / 100) = [0, 27, 53, 78, 101].map (BitVec.ofInt 16) ∧
      segmentSamples ref 0 11025 4 1 = [0, 16383, 0, -16383].map (BitVec.ofInt 16) ∧
      segmentSamples ref 0 33075 4 1 = [0, -16383, 0, 16383].map (BitVec.ofInt 16) :=
  ⟨segmentSamples_of_looks (by decide +kernel), segmentSamples_of_looks (by decide +kernel),
    segmentSamples_of_looks (by decide +kernel), segmentSamples_of_looks (by decide +kernel)⟩

/-- V44: phases, volumes and samples, at the exact points and at an eighth of a turn. -/
def ampVectors : List (Rat × Rat × Int) :=
  [(0, 1, 0), (1 / 12, 1, 8191), (1 / 4, 1, 16383), (5 / 12, 1, 8191), (1 / 2, 1, 0), (7 / 12, 1, -8191),
   (3 / 4, 1, -16383), (11 / 12, 1, -8191), (1 / 8, 1, 11584), (1 / 4, 1 / 2, 8191), (1 / 4, 1 / 100, 163),
   (1 / 4, 99 / 100, 16219), (3 / 4, 1 / 2, -8191), (1 / 3, 0, 0)]

theorem test_amp : ∀ x ∈ ampVectors, ampInt ref x.1 x.2.1 = x.2.2 := fun x hx =>
  ampInt_of_firstLook
    ((by decide +kernel : ∀ x ∈ ampVectors, firstLook ref (ampBounds x.1 x.2.1 0) = some x.2.2) x hx)

/-- R210: the reference quantiser truncates toward zero, as its examples show. -/
theorem test_reference_quantiser : ∀ x : ℝ, quantReal ref x = trunc0 x := quantReal_reference 1000 0

/-- V32, V45: the phases at the ends of the preamble, the three units and the postamble. -/
theorem test_phases :
    (List.range 6).map (fun n => phaseAfter 0 ((segmentList (cfgAt 4545 1170 1000 100) [0b00#2, 0b01#2, 0b10#2]).take n)) =
      [0, 0, 2 / 909, 677 / 909, 560 / 909, 560 / 909] := by decide +kernel

/-- P1, P2, P4: the phase a whole session ends at, from the units of its text. -/
theorem test_session_phase :
    phaseAfter 0 (segmentList (cfgAt 4545 1170 1000 100) (unitsOf ref (textSymbols ref (txt [0x43, 0x51])))) = 214 / 909 ∧
      phaseAfter 0 (segmentList (cfgAt 5000 1170 1000 50)
        (unitsOf ref (textSymbols ref (txt [0x61, 0x20AC, 0x62])))) = 3 / 10 ∧
      phaseAfter 0 (segmentList (cfgAt 4545 1170 1000 127)
        (unitsOf ref (textSymbols ref (txt [0x61, 0x62, 0x20, 0x31, 0x32, 0x20, 0x448, 0x44F])))) = 526 / 909 := by
  decide +kernel

/-- P1: samples across the join of the preamble and the start unit, and the last sample of the session. -/
theorem test_session_samples :
    segmentSamples ref 0 1000 6 1 = [0, 2326, 4605, 6791, 8839, 10708].map (BitVec.ofInt 16) ∧
      ampInt ref (frac (214 / 909 + 1170 * 13229 / 44100)) 1 = 15840 :=
  ⟨segmentSamples_of_looks (by decide +kernel), ampInt_of_firstLook (by decide +kernel)⟩

/-- V46: the count of `"CQ"` at the defaults. -/
theorem test_total_samples :
    ((segmentList (cfgAt 4545 1170 1000 100) (unitsOf ref (textSymbols ref (txt [0x43, 0x51])))).map
      fun g => sampleCount ref g.2).sum = 77385 := by decide +kernel

/-- R219 (a), (b): `"CQ"`'s first frame, no units, and 100 baud, where the half unit is a tie. -/
theorem test_R219_phase_and_count :
    [(cfgAt 4545 1170 1000 100, frs [0011101]), (cfgAt 4545 1170 1000 100, []), (cfgAt 10000 1275 1445 50, frs [0111011])].all
      (fun x => phaseContinuous ref x.1 x.2 && countFormula ref x.1 x.2) = true := by decide +kernel

/-- R219 (c): D0's `"CQ"` by the count formula. -/
theorem test_R219_CQ :
    countFormula ref (cfgAt 4545 1170 1000 100) (unitsOf ref (textSymbols ref (txt [0x43, 0x51]))) = true := by
  decide +kernel

/-- R219 (d), (e). -/
theorem test_R219_baud_and_volume :
    [0, -1, -4545, -2147483648].all (fun (b : Int) => rejectsBaud ref (cfgAt b 1170 1000 100) [0b00#2]) = true ∧
      [-128, -1, 0, 50, 100, 101, 127].all (fun (v : Int) => clampsVolume (cfgAt 4545 1170 1000 v)) = true := by
  decide +kernel

/-- V40: a segment of no samples still moves the phase. -/
theorem test_empty_segment :
    let t := runSegment ref 1000 (1 / 100000) sess
    t.pcm = [] ∧ t.theta = 1 / 100 ∧ t.syn.segN = 0 := by decide +kernel

/-- V38, V54: the fatal conditions in their order, and what is left. -/
theorem test_fatal_config :
    ([cfgAt 0 1170 1000 100, cfgAt (-4545) 1170 1000 100, cfgAt (-2147483648) 1170 1000 50, cfgAt 4545 0 1000 100,
      cfgAt 4545 1170 0 100, cfgAt 4545 0 0 100, cfgAt 0 0 0 120, cfgAt 1 1170 1000 100]).map fatalConfig =
      [some (.invalidBaud 0), some (.invalidBaud (-4545)), some (.invalidBaud (-2147483648)), some .invalidMark,
       some .invalidSpace, some .invalidMark, some (.invalidBaud 0), none] ∧
    statusWord (Outcome.getD (synthesizeUnits ref [0b00#2] (cfgAt 0 1170 1000 100) sess) sess) = 0x0C#8 := by decide +kernel

/-- V37: the volume clamp. -/
theorem test_volume_clamp :
    (checkVolume (cfgAt 1 1 1 120) sess).evt = [⟨.invalidConfig, .warn, .config .volume 120⟩] ∧
      (checkVolume (cfgAt 1 1 1 120) sess).volClamped = true ∧
      [120, 127, -5, -128, 100, 0, 50].map (fun (v : Int) => volumeFraction (cfgAt 1 1 1 v)) = [1, 1, 0, 0, 1, 0, 1 / 2] ∧
      checkVolume (cfgAt 1 1 1 100) sess = sess := by decide +kernel

/-! ## Steps -/

/-- The first instruction after reset, placed as a bare word (log 3). -/
theorem test_step_from_reset :
    Outcome.isNext (step (State.reset.withFetchWord 8 0x00)) = true ∧
      (Outcome.getD (step (State.reset.withFetchWord 8 0x01)) sess).result = .emptyInput ∧
      Outcome.refusal? (step (State.reset.withFetchWord 8 0x55)) = some (.reservedCommand 0x55#8) := by decide +kernel

/-- R250: the sequencer's positions from START to the body, and from the last body move on. -/
theorem test_sequencer_positions :
    (Outcome.getD (step { sess with phase := .encoding (.textEvents 0) }) sess).phase = .encoding (.textEvents 1) ∧
      (Outcome.getD (step { sess with phase := .encoding (.textEvents 1) }) sess).phase = .encoding (.start 0) ∧
      (Outcome.getD (step { sess with phase := .encoding (.start 2) }) sess).phase = .encoding .body ∧
      (Outcome.getD (step { sess with phase := .encoding .body }) sess).phase = .encoding (.close 0) ∧
      (Outcome.getD (step { sess with phase := .encoding .summary }) sess).phase = .synthesizing .check ∧
      (Outcome.getD (step { sess with phase := .synthesizing .check }) sess).phase = .synthesizing .pre := by decide +kernel

/-- R156: an unsupported element in the body. -/
theorem test_body_unsupported :
    let s : State := { sess with phase := .encoding .body, txt := txt [0x20AC] }
    let t := Outcome.getD (step { s with enc := { txtPos := 0, cur := 0, unitCnt := 24 } }) sess
    t.unsupSeen = true ∧ t.enc = { txtPos := 1, cur := 0x20AC#21, unitCnt := 24 } ∧ t.bits = [] := by decide +kernel

/-- R290: a host's event stands between the two events at the entry of ENCODE. -/
theorem test_host_event_between :
    (Outcome.getD (runFor 3 { sess with
        phase := .encoding (.textEvents 0)
        inbox := [.core, .request (.evt 0x10#8 0b00#2 .none), .core] }) sess).evt.map Event.kind =
      [.text, .playbackFinished, .encBegin] := by decide +kernel

/-! ## The host -/

/-- V62: the header of a file of 77385 samples and the bytes of its first samples. -/
theorem test_wav_header :
    wavHeader 77385 = [0x52, 0x49, 0x46, 0x46, 0xB6, 0x5C, 0x02, 0x00, 0x57, 0x41, 0x56, 0x45, 0x66, 0x6D, 0x74, 0x20] ++
      [0x10, 0x00, 0x00, 0x00, 0x01, 0x00, 0x01, 0x00, 0x44, 0xAC, 0x00, 0x00, 0x88, 0x58, 0x01, 0x00] ++
      [0x02, 0x00, 0x10, 0x00, 0x64, 0x61, 0x74, 0x61, 0x92, 0x5C, 0x02, 0x00] := by decide +kernel

theorem test_wav_samples :
    samplesBytes [0, 2718, 5361, 7855, -7855, -1] =
      [0x00, 0x00, 0x9E, 0x0A, 0xF1, 0x14, 0xAF, 0x1E, 0x51, 0xE1, 0xFF, 0xFF] ∧
      wavParse (wavImage [0, 2718, -7855]) = some ⟨44100, 1, 16, [0, 2718, -7855]⟩ := by decide +kernel

/-- The host's side at the end of a playback of two samples, the save flag set. -/
def played : State :=
  { sess with hostSide := { State.reset.hostSide with dev := some ⟨[1, 2], 2, true⟩ } }

/-- V60: the events of a saved transmission. -/
theorem test_saved_playback :
    let t := Outcome.getD (hostMove .poll played) sess
    let u := Outcome.getD (hostMove (.writeDone (.saved [])) t) sess
    u.evt.map Event.kind = [.playbackFinished, .saved, .txComplete] ∧ u.hostSide.files = [wavImage [1, 2]] ∧
      controllerState t = .saving ∧ controllerState u = .idle := by decide +kernel

/-- V60, R270: `stop()` during the playback, through `Stopped`. -/
theorem test_stop :
    let t := Outcome.getD (hostMove .stop played) sess
    t.evt.map Event.kind = [.txStopped] ∧ (Outcome.getD (hostMove .poll t) sess).evt = t.evt ∧
      controllerPath .stop played t = [.stopped, .idle] := by decide +kernel

/-- R270: the controller's states while a `transmit` waits coincide with `STATE`. -/
theorem test_controller_states :
    ([.idle, .encoding .body, .synthesizing .data] : List Phase).map (fun ph =>
      controllerState { sess with phase := ph, hostSide := { sess.hostSide with tx := true } }) =
      [.idle, .encoding, .synthesizing] ∧ controllerState played = .playing := by decide +kernel

/-- R282: the defaults, and the conversion to centibaud. -/
theorem test_settings :
    (let st : Settings := { volPct := 100, verbose := false, save := false }
     centibaud default st.baud = 4545 ∧ st.markHz = 1170 ∧ st.spaceHz = 1000) ∧
      centibaud default (75 / 2) = 3750 ∧
      centibaud { (default : HostImpl) with roundBaud := fun _ => 13450 } (269 / 2 + 1 / 999) = 13450 := by
  decide +kernel

/-- R280: of two writes in flight after stops, the later one may end first. -/
theorem test_orphans_any_order :
    let s : State := { sess with hostSide := { sess.hostSide with orphans := [[1], [2]] } }
    (finishOrphan default 1 (.saved []) s).hostSide.files = [[2]] ∧
      (finishOrphan default 1 (.saved []) s).hostSide.orphans = [[1]] := by decide +kernel

/-! ## Witnesses: values that meet the hypotheses of each obligation together -/

/-- A text of one letter, ready to be started. -/
def ready : State := { State.reset with txt := txt [0x43] }

/-- A session that has encoded five frames and is about to synthesize them. -/
def inData : State :=
  { sess with
    phase := .synthesizing .data
    bits := frs [0111111, 0000101, 0010001, 0000101, 0010001]
    totalUnits := 40
    syn := { v := 1, segF := 1170, segN := 13230, segI := 13229, sampleCnt := 13230, unitPos := 0 } }

/-- The same session with its units all run, and one at the last unit. -/
def atLastUnit : State := { inData with syn := { inData.syn with unitPos := 39 } }

theorem inData_fatal : fatalConfig inData.cfg.params = none := by decide +kernel

theorem inData_inv : Inv inData where
  theta_turn := ⟨le_refl 0, by decide +kernel⟩
  text_scalar := fun _ h => nomatch h
  text_length := Nat.zero_le _
  bits_units := by
    show ∀ u ∈ frs [0111111, 0000101, 0010001, 0000101, 0010001], u ≠ 0b11#2
    decide +kernel
  bits_frames := rfl
  pcm_range := fun _ h => nomatch h
  evt_tags := fun _ h => nomatch h
  session := by
    refine ⟨rfl, rfl, ?_, rfl, inData_fatal, ?_, ?_, Nat.zero_le _, Nat.zero_le _⟩
    · show 40 ≤ (frs [0111111, 0000101, 0010001, 0000101, 0010001]).length
      decide +kernel
    · show (0 : Rat) ≤ 1
      decide +kernel
    · exact le_refl (1 : Rat)
  host_job := fun h => nomatch h

theorem witness_DecodeEncodeAgree :
    (Instr.seg 65535 (1 / 44100)).wellFormed = true ∧ decode (.evt 0x15#8 0b00#2 (.text [])) = .ok (.evSaved []) := by
  decide +kernel

theorem witness_FramesReadBack : parseFrame (fr 0110001) = some (code5 11000) := by decide +kernel

/-- The ends of each range of `LookupEveryKey`, and the characters just outside them. -/
theorem witness_LookupEveryKey :
    (txt [0x41, 0x5A, 0x30, 0x39, 0x2D, 0x2F, 0x20, 0x0D, 0x0A, 0x410, 0x42F, 0x401]).map (fun c => (lookup ref (.char c)).isSome) =
        List.replicate 12 true ∧
      (txt [0x40, 0x5B, 0x3B, 0x2A, 0x21, 0x0B, 0x40F, 0x430, 0x400, 0x402]).map (fun c => (lookup ref (.char c)).isSome) =
        List.replicate 10 false := by decide +kernel

/-- The ends of each range of `ModeOfEveryKey`. -/
theorem witness_ModeOfEveryKey :
    (txt [0x41, 0x5A, 0x30, 0x39, 0x2F, 0x427, 0x42E, 0x410, 0x426, 0x42F, 0x401, 0x20, 0x0D, 0x40]).map
      (fun c => classOf ref (.char c)) =
      [some (.mode .lat), some (.mode .lat), some (.mode .figs), some (.mode .figs), some (.mode .figs), some (.mode .figs),
       some (.mode .figs), some (.mode .rus), some (.mode .rus), some (.mode .rus), some (.mode .rus), some .neutral,
       some .neutral, none] := by decide +kernel

/-- The ends of each range of `UpperEveryChar`, and the characters just outside them. -/
theorem witness_UpperEveryChar :
    (txt [0x60, 0x61, 0x7A, 0x7B, 0x42F, 0x430, 0x44F, 0x450, 0x451, 0x452]).map upper =
      txt [0x60, 0x41, 0x5A, 0x7B, 0x42F, 0x410, 0x42F, 0x450, 0x401, 0x452] := by decide +kernel

theorem witness_SameModeSymbol :
    ∃ r ∈ symRows, ∃ s : State, classOfRow Config.impl r.cls = .mode s.mode :=
  ⟨⟨0x0041#21, .needs .lat, .latA⟩, by decide +kernel, State.reset, rfl⟩

theorem witness_ModeSwitchSymbol :
    ∃ r ∈ symRows, ∃ (m : Mode) (s : State), classOfRow Config.impl r.cls = .mode m ∧ m ≠ s.mode :=
  ⟨⟨0x042F#21, .needs .rus, .rusYa⟩, by decide +kernel, .rus, State.reset, rfl, by decide +kernel⟩

theorem witness_ControlSymbols :
    ((.cr, 0x000D#21) : Instr × Elem) ∈ [((.cr, 0x000D#21) : Instr × Elem), (.lf, 0x000A#21)] ∧
      ((.lf, 0x000A#21) : Instr × Elem) ∈ [((.cr, 0x000D#21) : Instr × Elem), (.lf, 0x000A#21)] := by decide +kernel

theorem witness_MarkerSymbols :
    ([(.markLat, .lat), (.markFigs, .figs), (.markRus, .rus)] : List (Instr × Mode)).length = 3 ∧
      ((.markRus, .rus) : Instr × Mode) ∈ [((.markLat, .lat) : Instr × Mode), (.markFigs, .figs), (.markRus, .rus)] := by
  decide +kernel

theorem witness_EmitKey : (Key.char 0x0401#21).present = true ∧ (Key.char 0x0400#21).present = false := by decide +kernel

theorem witness_EncodeMeaning : ready.phase = .idle ∧ inData.phase ≠ .idle := by decide +kernel

theorem witness_ModeTable :
    rowOf (upper 0x20AC#21) = none ∧
      rowOf (upper 0x20#21) = some ⟨0x0020#21, .neutral, .sp⟩ ∧
      rowOf (upper 0x61#21) = some ⟨0x0041#21, .needs .lat, .latA⟩ ∧ Mode.lat ≠ Mode.rus ∧
      rowOf (upper 0x0A#21) = some ⟨0x000A#21, .ctrl, .lf⟩ ∧ ref.modeCtrl = .neutral ∧
      (refEven (.mode .figs)).modeCtrl = .mode .figs ∧ Mode.figs ≠ Mode.lat := by decide +kernel

/-- For `UnitCount`, `BeginsAndEnds`, `VerboseOnlyAddsEvents`, `UnsupportedSkipped`. -/
theorem witness_UnitCount : State.reset.phase = .idle := rfl

theorem witness_BeginsAndEnds : ready.phase = .idle := rfl

theorem witness_VerboseOnlyAddsEvents : sess.phase = .idle := rfl

theorem witness_UnsupportedSkipped : played.phase = .idle := rfl

theorem witness_SwitchMinimality :
    classOf ref (.char (upper 0x61#21)) = some (.mode .lat) ∧ classOf ref (.char (upper 0x448#21)) = some (.mode .figs) := by
  decide +kernel

theorem witness_GuardMeaning : blank State.reset.txt = true ∧ blank ready.txt = false := by decide +kernel

theorem witness_StartMeaning :
    (ready.phase = .idle ∧ blank ready.txt = false) ∧ (sess.phase = .idle ∧ blank sess.txt = true) ∧
      inData.phase ≠ .idle := by decide +kernel

theorem witness_ReservedRefused : 3 ≤ (0x03#8 : Byte).toNat ∧ 3 ≤ (0xFF#8 : Byte).toNat ∧ 9 ≤ 9 := by decide +kernel

theorem witness_TextWrite :
    (State.reset.phase = .idle ∧ ([] : List Elem).length ≤ Config.impl.textLimit ∧ ([] : List Elem).all isScalar = true) ∧
      inData.phase ≠ .idle ∧ (txt [0xD800]).all isScalar = false ∧ (txt [0xDFFF]).all isScalar = false ∧
      (List.replicate (Config.impl.textLimit + 1) (0x41#21 : Elem)).all isScalar = true ∧
      Config.impl.textLimit < (List.replicate (Config.impl.textLimit + 1) (0x41#21 : Elem)).length := by
  refine ⟨⟨rfl, Nat.zero_le _, rfl⟩, by decide +kernel, by decide +kernel, by decide +kernel, ?_, by simp⟩
  rw [List.all_replicate]
  simp [isScalar]

theorem witness_UnitSegments :
    0 < baudOf sess.cfg.params ∧ (4545 : Rat) = baudOf sess.cfg.params ∧ sess.cfg.params.markHz ≠ 0 ∧
      sess.cfg.params.spaceHz ≠ 0 := by decide +kernel

theorem witness_PreAndPost : (Instr.post ∈ [Instr.pre, .post]) ∧ sess.cfg.params.markHz ≠ 0 := by decide +kernel

theorem witness_SegmentMeaning :
    ((1 : BitVec 16) ≠ 0 ∧ (0 : Rat) < 1 / 100000) ∧ (0 : BitVec 16) = 0 ∧ ((65535 : BitVec 16) ≠ 0 ∧ (0 : Rat) ≤ 0) ∧
      (cfgAt 1 0 0 0).markHz = 0 ∧ (cfgAt 1 0 0 0).spaceHz = 0 ∧
      ((cfgAt 0 1 1 0).markHz ≠ 0 ∧ (cfgAt 0 1 1 0).spaceHz ≠ 0 ∧ baudOf (cfgAt 0 1 1 0) ≤ 0) := by decide +kernel

theorem witness_RoundNearest :
    (0 : Rat) ≤ 441 / 2 ∧ |(970297 / 1000 : Rat) - (970 : Nat)| < 1 / 2 ∧ (441 / 2 : Rat) = (220 : Nat) + 1 / 2 := by
  refine ⟨by norm_num, ?_, by norm_num⟩
  rw [abs_lt]; constructor <;> norm_num

theorem witness_AmpValues :
    [0, 1 / 12, 1 / 4, 5 / 12, 1 / 2, 7 / 12, 3 / 4, 11 / 12].all (fun (θ : Rat) => decide (0 ≤ θ ∧ θ < 1)) = true ∧
      (0 : Rat) ≤ 1 ∧ (1 : Rat) ≤ 1 ∧
      ([(1, 1), (-1 / 2, 1), (0, 101 / 100), (0, -1)] : List (Rat × Rat)).all
        (fun x => decide ¬(0 ≤ x.1 ∧ x.1 < 1 ∧ 0 ≤ x.2 ∧ x.2 ≤ 1)) = true := by decide +kernel

/-- The floor is a quantiser of R210. -/
theorem witness_AmpNearTheSine :
    ((0 : Rat) ≤ 99 / 100 ∧ (99 / 100 : Rat) < 1 ∧ (0 : Rat) ≤ 1 / 2 ∧ (1 / 2 : Rat) ≤ 1) ∧
      (∀ x : ℝ, |((⌊x⌋ : ℤ) : ℝ) - x| < 1) ∧ (∀ n : ℤ, ⌊(n : ℝ)⌋ = n) ∧ Monotone fun x : ℝ => ⌊x⌋ := by
  refine ⟨by decide +kernel, fun x => ?_, Int.floor_intCast, Int.floor_mono⟩
  rw [abs_lt]
  constructor <;> linarith [Int.floor_le x, Int.lt_floor_add_one x]

theorem witness_SynthesizeMeaning :
    sess.phase = .idle ∧ 0 < baudOf (cfgAt 1 65535 1 (-128)) ∧ (cfgAt 1 65535 1 (-128)).markHz ≠ 0 ∧
      (cfgAt 1 65535 1 (-128)).spaceHz ≠ 0 ∧ (∀ u ∈ [0b00#2, 0b01#2, 0b10#2], u ≠ 0b11#2) ∧ inData.phase ≠ .idle := by
  decide +kernel

theorem witness_SynthesizeFatal :
    sess.phase = .idle ∧ baudOf (cfgAt 0 0 0 120) ≤ 0 ∧ (0 < baudOf (cfgAt 1 0 0 100) ∧ (cfgAt 1 0 0 100).markHz = 0) ∧
      (0 < baudOf (cfgAt 1 1 0 100) ∧ (cfgAt 1 1 0 100).markHz ≠ 0 ∧ (cfgAt 1 1 0 100).spaceHz = 0) := by decide +kernel

theorem witness_SynthesizeReserved :
    sess.phase = .idle ∧ 0 < baudOf sess.cfg.params ∧ sess.cfg.params.markHz ≠ 0 ∧ sess.cfg.params.spaceHz ≠ 0 ∧
      0b11#2 ∈ [0b00#2, 0b11#2] := by decide +kernel

theorem witness_SampleCount :
    ready.phase = .idle ∧ 0 < baudOf (cfgAt 2147483647 1 1 0) ∧ (cfgAt 2147483647 1 1 0).markHz ≠ 0 ∧
      (cfgAt 2147483647 1 1 0).spaceHz ≠ 0 ∧ ∀ u ∈ ([] : List UnitCode), u ≠ 0b11#2 := by decide +kernel

theorem witness_PhaseContinuity : 12 < sampleCount ref (100 / 4545) := by decide +kernel

theorem witness_StepRunsRequest :
    (decode (.regRd 1) = .ok (.regRd 1) ∧ hostMayIssue (.regRd 1) = true) ∧
      (decode (.unit 0b00#2) = .ok .u0 ∧ hostMayIssue .u0 = false ∧ hostMayIssue (.encode [] true) = false) ∧
      decode (.regRd 9) = .rejected (.noSuchRegister 9) ∧
      decodeTableWord 8 0x01 = some .start ∧ { sess with inbox := [.request (.regRd 1)] }.inbox = [.request (.regRd 1)] := by
  decide +kernel

theorem witness_StepRunsSymbolOrUnit :
    ({ sess with inbox := [.core] }.inbox = [.core] ∧ sess.inbox = []) ∧
      (txt [0x61])[0]? = some 0x61#21 ∧ decode (.elem (upper 0x61#21)) = .ok .latA ∧
      decode (.elem (upper 0x20AC#21)) = .rejected (.notInTable 0x20AC#21) ∧
      inData.phase = .synthesizing .data ∧ inData.bits[inData.syn.unitPos]? = some 0b00#2 ∧
      atLastUnit.bits[atLastUnit.syn.unitPos]? = some 0b10#2 ∧ decode (.unit 0b10#2) = .ok .uh := by decide +kernel

theorem inData_moves : ∃ t, sequencerMove inData = .next t := by
  rw [move_data (s := inData) rfl, dataMove_some (s := inData) (u := 0b00#2) (by decide +kernel),
    unitSegment_next _ inData_fatal (by decide +kernel), mapNext_next]
  exact ⟨_, rfl⟩

theorem witness_InvariantKept : ∃ t, Inv inData ∧ step inData = .next t := by
  obtain ⟨t, h⟩ := inData_moves
  exact ⟨t, inData_inv, (step_sequencer rfl).trans h⟩

theorem witness_EverySessionEnds : Inv inData ∧ inData.inbox = [] ∧ inData.phase ≠ .idle :=
  ⟨inData_inv, rfl, by decide +kernel⟩

theorem witness_SessionIsOneTransaction :
    { ready with inbox := [.request (.cmd 0x01#8)] }.phase = .idle ∧ 55 + 17 * ready.txt.length ≤ 72 := by decide +kernel

theorem witness_SessionOutcome :
    (ready.phase = .idle ∧ blank ready.txt = false ∧ fatalConfig (cfgAt 4545 1170 1000 0) = none) ∧ blank sess.txt = true ∧
      fatalConfig (cfgAt 0 1170 1000 0) = some (.invalidBaud 0) := by decide +kernel

theorem witness_NoCarryOver :
    ready.phase = .idle ∧ { ready with mode := .figs, theta := 1 / 2, result := .ok }.phase = .idle ∧
      ready.txt = { ready with mode := .figs, theta := 1 / 2, result := .ok }.txt := ⟨rfl, rfl, rfl⟩

theorem witness_ConfigurationLatch : 1 ≤ 1 ∧ 1 ≤ 8 ∧ 8 ≤ 8 ∧ inData.phase ≠ .idle := by decide +kernel

/-- The settings of the tests. -/
def settings : Settings := { volPct := 100, verbose := true, save := true }

theorem witness_HostFrame :
    (∃ t, hostMove (.transmit (txt [0x43]) settings) sess = .next t) ∧ { sess with pcm := [1, 2] }.pcm = 1 :: [2] ∧
      { sess with evt := [⟨.encBegin, .info, .none⟩] }.evt = (⟨.encBegin, .info, .none⟩ : Event) :: [] ∧ sess.pcm = [] ∧
      sess.evt = [] := ⟨⟨_, rfl⟩, rfl, rfl, rfl, rfl⟩

theorem witness_CoreIgnoresHost : ∃ t, sequencerMove inData = .next t ∧ { inData with pcm := [1] } ≠ inData := by
  obtain ⟨t, h⟩ := inData_moves
  refine ⟨t, h, fun h => ?_⟩
  have : [1] = inData.pcm := congrArg State.pcm h
  cases this

/-- A `transmit` that waits with its synthesis done while the prior session writes its file. -/
def waiting : State :=
  { played with result := .ok, pcm := [3], hostSide := { played.hostSide with tx := true, job := some [7] } }

theorem witness_TransmitMeaning :
    (sess.hostSide.tx = false ∧ waiting.hostSide.tx = true ∧ waiting.phase = .idle ∧ waiting.result = .ok ∧
      waiting.hostSide.dev.isSome = true) ∧
      (let s := { sess with result := .ok, hostSide := { sess.hostSide with tx := true } }
       s.hostSide.tx = true ∧ s.phase = .idle ∧ s.hostSide.dev = none ∧ s.result = .ok) ∧ sess.result ≠ .ok ∧
      inData.phase ≠ .idle ∧ (4545 / 100 : Rat) = (4545 : Int) / 100 ∧ (-2 ^ 31 : Int) ≤ -2 ^ 31 ∧
      (2 ^ 31 - 1 : Int) < 2 ^ 31 := by decide +kernel

/-- A buffer of `2 ^ 31` samples or more is too long for the size fields of its file. -/
theorem wavFits_replicate (n : Nat) (h : 2 ^ 31 ≤ n) : wavFits (List.replicate n 0) = false := by
  simp only [wavFits, List.length_replicate, decide_eq_false_iff_not]
  omega

theorem witness_PlaybackEnds_tooLong :
    ∃ d : Playback, d.buffer.length ≤ d.position ∧ d.save = true ∧ wavFits d.buffer = false :=
  have h : ∀ n, 2 ^ 31 ≤ n → ∃ d : Playback, d.buffer.length ≤ d.position ∧ d.save = true ∧ wavFits d.buffer = false :=
    fun n hn => ⟨⟨List.replicate n 0, n, true⟩, (List.length_replicate ..).le, rfl, wavFits_replicate n hn⟩
  h (2 ^ 31) (Nat.le_refl _)

theorem witness_PlaybackEnds :
    played.hostSide.dev = some ⟨[1, 2], 2, true⟩ ∧ played.hostSide.job = none ∧ wavFits [1, 2] = true ∧
      (⟨[1, 2], 1, false⟩ : Playback).position < (⟨[1, 2], 1, false⟩ : Playback).buffer.length ∧
      { played.hostSide with job := some [] }.job = some [] ∧ sess.hostSide.dev = none ∧ sess.hostSide.job = none := by
  decide +kernel

theorem witness_StopMeaning :
    (sess.hostSide.dev = none ∧ sess.hostSide.tx = false ∧ sess.hostSide.job = none) ∧
      (played.hostSide.dev.isSome = true ∧ controllerState played = .playing) ∧ waiting.hostSide.tx = true ∧
      waiting.hostSide.job.isSome = true ∧
      (let h := { waiting.hostSide with orphans := [[7], [8]] }
       h.orphans[1]? = some [8] ∧ h.orphans[2]? = none) := by decide +kernel

theorem witness_WavRoundTrip : 2 * ([1, 2] : List Sample).length + 36 < 2 ^ 32 ∧ ([1, 2] : List Sample)[1]? = some 2 := by
  decide +kernel

end Sys2Proof.Tests
end

namespace Sys2Proof

/-! ## Decoding and encoding -/

/-- A checked instruction is answered exactly when it is well formed. -/
theorem Instr.checked_eq_ok {i j : Instr} {e : DecodeError} :
    i.checked e = .ok j ↔ i.wellFormed = true ∧ i = j := by
  unfold Instr.checked; split <;> simp_all

/-- The rows of the table and the encoder agree: the code of a row is its element (R97, R134). -/
theorem encode_symRow {r : SymRow} (h : r ∈ symRows) :
    r.instr.wellFormed = true ∧ encode r.instr = .elem r.elem := by
  have all : symRows.Forall fun r => r.instr.wellFormed = true ∧ encode r.instr = .elem r.elem := by
    simp only [symRows, latRows, figRows, rusRows, otherRows, List.cons_append, List.nil_append, List.forall_cons]
    repeat' constructor
  exact List.forall_iff_forall_mem.1 all r h

theorem decodeElem_eq_ok {c : Elem} {i : Instr} (h : decodeElem c = .ok i) : ∃ r, rowOf c = some r ∧ r.instr = i := by
  unfold decodeElem at h
  split at h
  · exact ⟨_, ‹_›, by injection h⟩
  · split at h <;> cases h

theorem decodeCmd_reserved {b : Byte} (h : 3 ≤ b.toNat) : decodeCmd b = .cmdReserved b := by
  unfold decodeCmd; split
  case h_4 => rfl
  all_goals omega

/-- A call that decodes is the call of its row (R113; log 5). -/
theorem encode_decodeCall {f : Call} {i : Instr} (h : decodeCall f = .ok i) :
    i.wellFormed = true ∧ encode i = .call f := by
  cases f with
  | encode text v | lookup k | upper c | modeOf k | emit k | seg g d =>
    obtain ⟨hw, rfl⟩ := Instr.checked_eq_ok.1 h; exact ⟨hw, rfl⟩
  | synthesize units c | grd | amp θ v => cases h; exact ⟨rfl, rfl⟩

/-- Every command byte is the code of its row (R30, R112). -/
theorem encode_decodeCmd (b : Byte) : (decodeCmd b).wellFormed = true ∧ encode (decodeCmd b) = .cmd b := by
  by_cases h : 3 ≤ b.toNat
  · rw [decodeCmd_reserved h]; exact ⟨decide_eq_true h, rfl⟩
  · have : b = 0 ∨ b = 1 ∨ b = 2 := by bv_omega
    rcases this with rfl | rfl | rfl <;> exact ⟨rfl, rfl⟩

/-- The kind byte of an event gives its kind back, and no other byte does (R108). -/
theorem evKindOf_code (k : EvKind) : evKindOf k.code = some k := by cases k <;> rfl

theorem code_of_evKindOf {b : Byte} {k : EvKind} (h : evKindOf b = some k) : b = k.code := by
  have all : ∀ b : Byte, (evKindOf b).all (fun k => b == k.code) = true := by decide +kernel
  simpa [h] using all b

theorem decodeEvt_encoded (k : EvKind) (pl : Payload) : decode (encodeEvt k pl) = decodePayload k pl := by
  simp [decode, encodeEvt, decodeEvt, evKindOf_code]

theorem encode_decodePayload {k : EvKind} {pl : Payload} {i : Instr} (h : decodePayload k pl = .ok i) :
    i.wellFormed = true ∧ encode i = encodeEvt k pl := by
  cases k with
  | text | persistFail | saved =>
    cases pl with
    | text t => obtain ⟨hw, rfl⟩ := Instr.checked_eq_ok.1 h; exact ⟨hw, rfl⟩
    | _ => cases h
  | char =>
    cases pl with
    | charCode c code => obtain ⟨hw, rfl⟩ := Instr.checked_eq_ok.1 h; exact ⟨hw, rfl⟩
    | _ => cases h
  | unsupported =>
    cases pl with
    | char c => obtain ⟨hw, rfl⟩ := Instr.checked_eq_ok.1 h; exact ⟨hw, rfl⟩
    | _ => cases h
  | encSummary | invalidConfig | encBegin | emptyInput | playbackFinished | txComplete | txStopped | deviceFail =>
    cases pl <;> cases h
    exact ⟨rfl, rfl⟩

/-- A well-formed instruction survives the way through its code. -/
theorem decode_encode {i : Instr} (h : i.wellFormed = true) : decode (encode i) = .ok i := by
  cases i with
  | cmdReserved v => exact congrArg Decoded.ok (decodeCmd_reserved (of_decide_eq_true h))
  | regRd n | regWr n v | txtWr text | encode text v | lookup k | upper c | modeOf k | emit k | seg f d =>
    exact Instr.checked_eq_ok.2 ⟨h, rfl⟩
  | evText t | evChar c code | evUnsupported c | evPersistFail t | evSaved t =>
    exact (decodeEvt_encoded ..).trans (Instr.checked_eq_ok.2 ⟨h, rfl⟩)
  | _ => rfl

/-- A code that decodes is the code of the well-formed instruction it decodes to. -/
theorem encode_decode {c : Code} {i : Instr} (h : decode c = .ok i) : i.wellFormed = true ∧ encode i = c := by
  cases c with
  | elem c =>
    obtain ⟨r, hr, rfl⟩ := decodeElem_eq_ok h
    rw [← Machine.rowOf_elem hr]
    exact encode_symRow (Machine.rowOf_mem hr)
  | marker m =>
    have : m = 0 ∨ m = 1 ∨ m = 2 ∨ m = 3 := by bv_omega
    rcases this with rfl | rfl | rfl | rfl <;> cases h <;> exact ⟨rfl, rfl⟩
  | unit u =>
    have : u = 0 ∨ u = 1 ∨ u = 2 ∨ u = 3 := by bv_omega
    rcases this with rfl | rfl | rfl | rfl <;> cases h <;> exact ⟨rfl, rfl⟩
  | pseudo p => cases p <;> cases h <;> exact ⟨rfl, rfl⟩
  | cmd b => cases h; exact encode_decodeCmd b
  | regRd n | regWr n v | txtWr text => obtain ⟨hw, rfl⟩ := Instr.checked_eq_ok.1 h; exact ⟨hw, rfl⟩
  | reset => cases h; exact ⟨rfl, rfl⟩
  | call f => exact encode_decodeCall h
  | evt kind tag pl =>
    simp only [decode, decodeEvt] at h
    split at h
    · cases h
    · rename_i k hk
      split_ifs at h with ht
      rw [code_of_evKindOf hk, ht]
      exact encode_decodePayload h

/-- Settles O1: one direction by the constructors of `Instr`, the other by those of `Code`. -/
theorem decodeEncodeAgree : Obligations.DecodeEncodeAgree :=
  ⟨fun _ h => decode_encode h, fun _ _ h => encode_decode h⟩
end Sys2Proof

namespace Sys2Proof.Machine

/-! ## The invariant (R24, R31, R62, R63, R96, R108, R199) -/

/-- The session part of the invariant at the position the sequencer is known to stand at. -/
theorem sessionInv_at {s : State} {ph : Phase} (hp : s.phase = ph) : sessionInv s ↔ sessionInv (goTo ph s) := by
  subst hp; exact Iff.rfl

/-- The invariant but for what it says of the session: the invariant of the state as if no session ran. -/
def ChannelInv (s : State) : Prop := Inv (goTo .idle s)

theorem Inv.channels {s : State} (h : Inv s) : ChannelInv s := { h with session := trivial }

theorem ChannelInv.inv {s : State} (h : ChannelInv s) (hs : sessionInv s) : Inv s := { h with session := hs }

theorem ChannelInv.inv_at {s : State} {ph : Phase} (h : ChannelInv s) (hp : s.phase = ph)
    (hs : sessionInv (goTo ph s)) : Inv s := h.inv ((sessionInv_at hp).2 hs)

theorem Inv.sessionAt {s : State} (h : Inv s) {ph : Phase} (hp : s.phase = ph) : sessionInv (goTo ph s) :=
  (sessionInv_at hp).1 h.session

section Operations

variable {s : State}

/-! ### What the invariant does not speak of -/

/-- The invariant says nothing of the registers the host writes, the two flags, the value returned, the pending slots
and the counter of free values. -/
theorem Inv.free (h : Inv s) (b : BitVec 32) (m sp : BitVec 16) (vp : BitVec 8) (vb vc us : Bool) (r : Ret)
    (ib : List Slot) (n : Nat) :
    Inv { s with baudCb := b, markHz := m, spaceHz := sp, volPct := vp, verbose := vb, volClamped := vc,
                 unsupSeen := us, ret := r, inbox := ib, fresh := n } :=
  { h with }

theorem Inv.inbox (h : Inv s) (ib : List Slot) : Inv { s with inbox := ib } := h.free ..

theorem Inv.answer (h : Inv s) (r : Ret) : Inv (answer r s) := h.free ..

theorem Inv.draw (h : Inv s) : Inv (draw s) := h.free ..

theorem Inv.writeConfig (h : Inv s) (n : Nat) (v : BitVec 64) : Inv (writeConfig n v s) := by
  unfold Machine.writeConfig; split <;> exact h.free ..

/-! ### The operations keep it -/

theorem Inv.pushEvent (h : Inv s) (k : EvKind) (pl : Payload) : Inv (pushEvent k pl s) :=
  { h with evt_tags := by simpa [or_imp, forall_and] using h.evt_tags }

/-- Ending the session keeps the invariant, whatever the outcome. -/
theorem ChannelInv.ended (h : ChannelInv s) (r : Result) : Inv { s with result := r, phase := .idle } := { h with }

/-- Taking an error keeps the invariant: a fatal kind ends the session, another one leaves it alone (R308). -/
theorem Inv.raise (h : Inv s) (e : ErrorKind) : Inv (raise e s) := by
  have hp := h.pushEvent (errorKindOf e) (errorPayload e)
  cases e with
  | emptyInput | invalidBaud _ | invalidMark | invalidSpace => exact hp.channels.ended _
  | unsupportedCharacter _ | invalidVolume _ => exact hp.free ..
  | deviceAcquisitionFailure | persistenceFailure _ => exact hp

theorem ChannelInv.raise (h : ChannelInv s) (e : ErrorKind) : ChannelInv (raise e s) := by
  have hi := (Inv.raise h e).channels
  cases e <;> exact hi

theorem Inv.onHost (h : Inv s) {f : HostSide → HostSide}
    (hf : (f s.hostSide).job.isSome = true → (f s.hostSide).dev.isSome = true) : Inv (onHost f s) :=
  { h with host_job := hf }

/-- A frame is eight units, none of them reserved (R63, R96). -/
theorem ChannelInv.emitKey (h : ChannelInv s) (p : Impl) (k : Key) : ChannelInv (emitKey p k s) :=
  { h with
    bits_units := fun u hu => (List.mem_append.1 hu).elim (h.bits_units u) (frame_units _ u)
    bits_frames := by
      have := h.bits_frames
      simp_all }

theorem ChannelInv.enterClass (h : ChannelInv s) (p : Impl) (cls : SymClass) : ChannelInv (enterClass p cls s) := by
  unfold Machine.enterClass
  split
  · exact h
  · split_ifs
    · exact h
    · exact { h.emitKey p _ with }

theorem ChannelInv.verboseEvent (h : ChannelInv s) (p : Impl) (v : Bool) (c : Elem) :
    ChannelInv (verboseEvent p v c s) := by
  unfold Machine.verboseEvent
  split_ifs
  · exact Inv.pushEvent h ..
  · exact h

/-- One turn of the character loop (R151). -/
theorem ChannelInv.encodeElem (h : ChannelInv s) (p : Impl) (v : Bool) (c : Elem) : ChannelInv (encodeElem p v c s) := by
  have hr : ChannelInv (readElem c s) := { h with }
  unfold Machine.encodeElem
  split
  · exact hr.raise _
  · exact ((hr.enterClass p _).verboseEvent p v _).emitKey p _

/-- A segment at a volume fraction: its samples are in range and the phase it leaves is a `Turn` (R199, R201). -/
theorem ChannelInv.runSegment (h : ChannelInv s) (hv : 0 ≤ s.syn.v ∧ s.syn.v ≤ 1) (p : Impl) (f : BitVec 16) (d : Rat) :
    ChannelInv (runSegment p f d s) :=
  { h with
    theta_turn := frac_turn _
    pcm_range := fun x hx =>
      (List.mem_append.1 hx).elim (h.pcm_range x) (segmentSamples_range p _ f _ hv.1 hv.2 x) }

theorem ChannelInv.synthesizeEnter (h : ChannelInv s) (c : SynParams) : ChannelInv (synthesizeEnter c s) := by
  have hc : ChannelInv (checkVolume c s) := by
    unfold checkVolume
    split_ifs
    · exact h.raise _
    · exact h
  exact { hc with theta_turn := ⟨le_refl 0, zero_lt_one⟩ }

theorem ChannelInv.openSession (h : ChannelInv s) : ChannelInv (openSession s) :=
  { h with
    bits_units := fun _ h => nomatch h
    bits_frames := rfl
    pcm_range := fun _ h => nomatch h }

end Operations

/-! ### The moves of the sequencer (R22, R151, R191) -/

section Moves

variable {s t : State}

theorem inv_textEvent (h : Inv s) (hp : s.phase = .encoding (.textEvents 0)) :
    Inv (goTo (.encoding (.textEvents 1)) (textEvent s.txt s)) :=
  ChannelInv.inv (Inv.pushEvent h.channels ..) (h.sessionAt hp)

theorem inv_encBegin (h : Inv s) (hp : s.phase = .encoding (.textEvents 1)) :
    Inv (goTo (.encoding (.start 0)) (encodeBegin s)) := by
  obtain ⟨hr, hu, hs, hpcm, htxt, hbits⟩ := h.sessionAt hp
  have hl : s.bits.length = 0 := congrArg List.length hbits
  exact ChannelInv.inv { Inv.pushEvent h.channels .encBegin .none with } ⟨hr, hu, hs, hpcm, htxt, rfl, rfl, hl.symm, hl⟩

theorem inv_start (h : Inv s) {k : Fin 3} (hp : s.phase = .encoding (.start k)) :
    Inv (goTo (afterStart k) (emitKey Config.impl (startKey k) s)) := by
  obtain ⟨hr, hu, hs, hpcm, htxt, hm, hpos, hcnt, hlen⟩ := h.sessionAt hp
  have hcnt' : s.enc.unitCnt + 8 = (s.bits ++ frame (Config.impl.code (startKey k))).length := by
    simpa using hcnt
  have hlen' : (s.bits ++ frame (Config.impl.code (startKey k))).length = 8 * k.val + 8 := by
    simpa using hlen
  refine ChannelInv.inv (h.channels.emitKey _ _) ?_
  match k with
  | 0 | 1 => exact ⟨hr, hu, hs, hpcm, htxt, hm, hpos, hcnt', hlen'⟩
  | 2 => exact ⟨hr, hu, hs, hpcm, htxt, hpos.le.trans (Nat.zero_le _), hcnt', hlen'.ge⟩

theorem inv_bodyElem (h : Inv s) (hp : s.phase = .encoding .body) {c : Elem} (hc : s.txt[s.enc.txtPos]? = some c) :
    Inv (advanceText (encodeElem Config.impl s.cfg.verbose c s)) := by
  obtain ⟨hr, hu, hs, hpcm, htxt, -, hcnt, hlen⟩ := h.sessionAt hp
  have hi := h.channels.encodeElem Config.impl s.cfg.verbose c
  rw [encodeElem_eq] at hi ⊢
  have hpos : s.enc.txtPos < s.txt.length := (List.getElem?_eq_some_iff.1 hc).1
  have hcnt' : s.enc.unitCnt = s.bits.length := hcnt
  have hlen' : 24 ≤ s.bits.length := hlen
  refine ChannelInv.inv_at { hi with } hp ⟨hr, hu, hs, hpcm, htxt, hpos, ?_, ?_⟩
  · simp [hcnt']
  · simp [hlen'.trans (Nat.le_add_right ..)]

theorem inv_bodyEnd (h : Inv s) (hp : s.phase = .encoding .body) : Inv (goTo (.encoding (.close 0)) s) := by
  obtain ⟨hr, hu, hs, hpcm, htxt, -, hcnt, hlen⟩ := h.sessionAt hp
  exact ChannelInv.inv h.channels ⟨hr, hu, hs, hpcm, htxt, hcnt, hlen⟩

theorem inv_close (h : Inv s) {k : Fin 2} (hp : s.phase = .encoding (.close k)) :
    Inv (goTo (afterClose k) (emitKey Config.impl (closeKey k) s)) := by
  obtain ⟨hr, hu, hs, hpcm, htxt, hcnt, hlen⟩ := h.sessionAt hp
  have hcnt' : s.enc.unitCnt + 8 = (s.bits ++ frame (Config.impl.code (closeKey k))).length := by
    simpa using hcnt
  have hlen' : 24 + 8 * k.val + 8 ≤ (s.bits ++ frame (Config.impl.code (closeKey k))).length := by
    simpa using hlen
  refine ChannelInv.inv (h.channels.emitKey _ _) ?_
  match k with
  | 0 | 1 => exact ⟨hr, hu, hs, hpcm, htxt, hcnt', hlen'⟩

theorem inv_summary (h : Inv s) (hp : s.phase = .encoding .summary) :
    Inv (goTo (.synthesizing .check) (encodeFinish s)) := by
  obtain ⟨hr, hu, hs, hpcm, htxt, hcnt, hlen⟩ := h.sessionAt hp
  exact ChannelInv.inv { Inv.pushEvent h.channels .encSummary (.count s.enc.unitCnt) with }
    ⟨hr, hcnt, hlen, hs, hpcm⟩

theorem inv_check (h : Inv s) (hp : s.phase = .synthesizing .check) (hf : fatalConfig s.cfg.params = none) :
    Inv (goTo (.synthesizing .pre) (synthesizeEnter s.cfg.params s)) := by
  obtain ⟨hr, hu, hlen, hs, hpcm⟩ := h.sessionAt hp
  have hi := h.channels.synthesizeEnter s.cfg.params
  rw [synthesizeEnter_eq] at hi ⊢
  obtain ⟨hv0, hv1⟩ := volumeFraction_range s.cfg.params
  exact ChannelInv.inv hi ⟨hr, hu, hlen, hs, hf, hv0, hv1, rfl, rfl, rfl, hpcm⟩

/-- A segment appends as many samples as it adds to `SAMPLE_CNT`. -/
theorem runSegment_pcm_le (p : Impl) (f : BitVec 16) (d : Rat) (h : s.pcm.length ≤ s.syn.sampleCnt) :
    (runSegment p f d s).pcm.length ≤ (runSegment p f d s).syn.sampleCnt := by simpa using h

theorem inv_pre (h : Inv s) (hp : s.phase = .synthesizing .pre) :
    Inv (goTo (.synthesizing .data) (runSegment Config.impl s.cfg.params.markHz Config.preDuration s)) := by
  obtain ⟨hr, hu, hlen, hs, hf, hv0, hv1, -, -, hk, hpcm⟩ := h.sessionAt hp
  have hl : s.pcm.length ≤ s.syn.sampleCnt := (congrArg List.length hpcm).le.trans (Nat.zero_le _)
  exact ChannelInv.inv (h.channels.runSegment ⟨hv0, hv1⟩ ..)
    ⟨hr, hu, hlen, hs, hf, hv0, hv1, hk.le.trans (Nat.zero_le _), runSegment_pcm_le _ _ _ hl⟩

theorem inv_dataUnit (h : Inv s) (hp : s.phase = .synthesizing .data) {u : UnitCode}
    (hu : s.bits[s.syn.unitPos]? = some u) (f : BitVec 16) (d : Rat) :
    Inv (advanceUnit (runSegment Config.impl f d s)) := by
  obtain ⟨hr, hun, hlen, hs, hf, hv0, hv1, -, hl⟩ := h.sessionAt hp
  have hk : s.syn.unitPos < s.bits.length := (List.getElem?_eq_some_iff.1 hu).1
  exact ChannelInv.inv_at { h.channels.runSegment ⟨hv0, hv1⟩ Config.impl f d with } hp
    ⟨hr, hun, hlen, hs, hf, hv0, hv1, hk, runSegment_pcm_le _ _ _ hl⟩

theorem inv_dataEnd (h : Inv s) (hp : s.phase = .synthesizing .data) : Inv (goTo (.synthesizing .post) s) := by
  obtain ⟨hr, hu, hlen, hs, hf, hv0, hv1, -, hl⟩ := h.sessionAt hp
  exact ChannelInv.inv h.channels ⟨hr, hu, hlen, hs, hf, hv0, hv1, hl⟩

theorem inv_post (h : Inv s) (hp : s.phase = .synthesizing .post) :
    Inv (goTo (.synthesizing .done) (runSegment Config.impl s.cfg.params.markHz Config.preDuration s)) := by
  obtain ⟨hr, hu, hlen, hs, -, hv0, hv1, hl⟩ := h.sessionAt hp
  exact ChannelInv.inv (h.channels.runSegment ⟨hv0, hv1⟩ ..) ⟨hr, hu, hlen, hs, runSegment_pcm_le _ _ _ hl⟩

theorem inv_dataMove (h : Inv s) (hp : s.phase = .synthesizing .data) (hm : dataMove s = .next t) : Inv t := by
  have hf : fatalConfig s.cfg.params = none := by
    obtain ⟨-, -, -, -, hf, -⟩ := h.sessionAt hp
    exact hf
  cases hu : s.bits[s.syn.unitPos]? with
  | none => rw [dataMove_none hu] at hm; cases hm; exact inv_dataEnd h hp
  | some u =>
    rw [dataMove_some hu, unitSegment_next _ hf (h.bits_units u (List.mem_of_getElem? hu))] at hm
    cases hm; exact inv_dataUnit h hp hu ..

theorem inv_bodyMove (h : Inv s) (hp : s.phase = .encoding .body) (hm : bodyMove s = .next t) : Inv t := by
  cases hc : s.txt[s.enc.txtPos]? with
  | none => rw [bodyMove_none hc] at hm; cases hm; exact inv_bodyEnd h hp
  | some c => rw [bodyMove_some hc] at hm; cases hm; exact inv_bodyElem h hp hc

theorem inv_checkMove (h : Inv s) (hp : s.phase = .synthesizing .check) (hm : checkMove s = .next t) : Inv t := by
  unfold checkMove at hm
  split at hm <;> cases hm
  · exact h.raise _
  · exact inv_check h hp ‹_›

/-- Every move of the sequencer keeps the invariant. -/
theorem inv_sequencerMove (h : Inv s) (hm : sequencerMove s = .next t) : Inv t := by
  cases hp : s.phase with
  | idle => rw [move_idle hp] at hm; cases hm; exact h
  | encoding e =>
    cases e with
    | textEvents k =>
      match k with
      | 0 => rw [move_textEvent hp] at hm; cases hm; exact inv_textEvent h hp
      | 1 => rw [move_encBegin hp] at hm; cases hm; exact inv_encBegin h hp
    | start k => rw [move_start hp] at hm; cases hm; exact inv_start h hp
    | body => rw [move_body hp] at hm; exact inv_bodyMove h hp hm
    | close k => rw [move_close hp] at hm; cases hm; exact inv_close h hp
    | summary => rw [move_summary hp] at hm; cases hm; exact inv_summary h hp
  | synthesizing q =>
    cases q with
    | check => simp only [sequencerMove, hp] at hm; exact inv_checkMove h hp hm
    | pre =>
      obtain ⟨-, -, -, -, hf, -⟩ := h.sessionAt hp
      rw [move_pre hp hf] at hm; cases hm; exact inv_pre h hp
    | data => rw [move_data hp] at hm; exact inv_dataMove h hp hm
    | post =>
      obtain ⟨-, -, -, -, hf, -⟩ := h.sessionAt hp
      rw [move_post hp hf] at hm; cases hm; exact inv_post h hp
    | done => rw [move_done hp] at hm; cases hm; exact { h with session := trivial }

end Moves
/-! ### Requests and the host's own acts (R241, R247 to R249, R270 to R280) -/

section Requests

variable {s t : State}

/-- START from `IDLE`: with a blank text the session ends at once, with another it opens empty (R241, R242). -/
theorem inv_startCommand (h : Inv s) (hm : startCommand s = .next t) : Inv t := by
  have ho := h.channels.openSession
  unfold startCommand at hm
  split_ifs at hm with hp hb <;> cases hm
  · unfold guardText
    split_ifs
    · exact (ho.inv_at (not_not.1 hp) trivial).raise _
    · exact ho.inv_at (not_not.1 hp) trivial
  · exact ChannelInv.inv ho ⟨rfl, rfl, rfl, rfl, eq_false_of_ne_true hb, rfl⟩

theorem inv_writeCommand {b : Byte} (h : Inv s) (hm : writeCommand b s = .next t) : Inv t := by
  unfold writeCommand at hm
  split at hm
  · cases hm; exact h
  · exact inv_startCommand h hm
  · cases hm; exact h
  · cases hm

theorem inv_regRd {n : Nat} (h : Inv s) (hm : execRegRd n s = .next t) : Inv t := by
  unfold execRegRd at hm
  split at hm <;> cases hm
  exact h.answer _

theorem inv_regWr {n : Nat} {v : BitVec 64} (h : Inv s) (hm : execRegWr n v s = .next t) : Inv t := by
  unfold execRegWr at hm
  split_ifs at hm
  · exact inv_writeCommand h hm
  · cases hm; exact h.writeConfig n v

/-- TXTWR checks what the invariant says of `TXT` (R62, R249). -/
theorem inv_txtWr {text : List Elem} (h : Inv s) (hm : execTxtWr text s = .next t) : Inv t := by
  unfold execTxtWr at hm
  split_ifs at hm with hp hc hl
  cases hm
  have hi : ChannelInv { s with txt := text } :=
    { h.channels with
      text_scalar := List.all_eq_true.1 (eq_true_of_ne_false hc)
      text_length := not_lt.1 hl }
  exact hi.inv_at (not_not.1 hp) trivial

theorem inv_reset : Inv State.reset where
  theta_turn := ⟨le_refl 0, zero_lt_one⟩
  text_scalar := fun _ h => nomatch h
  text_length := Nat.zero_le _
  bits_units := fun _ h => nomatch h
  bits_frames := rfl
  pcm_range := fun _ h => nomatch h
  evt_tags := fun _ h => nomatch h
  session := trivial
  host_job := fun h => nomatch h

/-- RESET leaves the host's side alone, so what the invariant says of it stands (R248). -/
theorem inv_resetCore (h : Inv s) : Inv (resetCore s) := { inv_reset with host_job := h.host_job }

theorem inv_modeOf {k : Key} (h : Inv s) (hm : execModeOf k s = .next t) : Inv t := by
  cases k with
  | char c => cases hm; exact h.answer _
  | marker m => cases hm; exact h.draw.answer _

theorem inv_amp {θ v : Rat} (h : Inv s) (hm : execAmp θ v s = .next t) : Inv t := by
  unfold execAmp at hm
  split_ifs at hm <;> cases hm
  · exact h.answer _
  · exact h.draw.answer _

/-- Every instruction the host may issue keeps the invariant (R290). -/
theorem inv_exec {i : Instr} (h : Inv s) (hi : hostMayIssue i = true) (hm : exec i s = .next t) : Inv t := by
  cases i with
  | nop | stop => cases hm; exact h
  | start => exact inv_startCommand h hm
  | cmdReserved v => cases hm
  | regRd n => exact inv_regRd h hm
  | regWr n v => exact inv_regWr h hm
  | txtWr text => exact inv_txtWr h hm
  | reset => cases hm; exact inv_resetCore h
  | lookup k | upper c => cases hm; exact h.answer _
  | modeOf k => exact inv_modeOf h hm
  | amp θ v => exact inv_amp h hm
  | evPlaybackFinished | evTxComplete | evTxStopped | evDeviceFail | evPersistFail cause | evSaved location =>
    cases hm; exact h.pushEvent ..
  | _ => cases hi

/-- Fewer samples in `PCM` keep what the invariant says of the session. -/
theorem sessionInv_pcm {xs : List Sample} (h : sessionInv s) (hx : xs.length ≤ s.pcm.length) :
    sessionInv { s with pcm := xs } := by
  have hnil : s.pcm = [] → xs = [] := by rintro hs; simpa [hs] using hx
  cases hp : s.phase with
  | idle => trivial
  | encoding e =>
    obtain ⟨hr, hu, hs, hpcm, hrest⟩ := (sessionInv_at hp).1 h
    exact ⟨hr, hu, hs, hnil hpcm, hrest⟩
  | synthesizing q =>
    obtain ⟨hr, hu, hlen, hs, hrest⟩ := (sessionInv_at hp).1 h
    refine ⟨hr, hu, hlen, hs, ?_⟩
    cases q with
    | check => exact hnil hrest
    | pre =>
      obtain ⟨hf, hv0, hv1, hθ, hn, hk, hpcm⟩ := hrest
      exact ⟨hf, hv0, hv1, hθ, hn, hk, hnil hpcm⟩
    | data =>
      obtain ⟨hf, hv0, hv1, hk, hl⟩ := hrest
      exact ⟨hf, hv0, hv1, hk, hx.trans hl⟩
    | post =>
      obtain ⟨hf, hv0, hv1, hl⟩ := hrest
      exact ⟨hf, hv0, hv1, hx.trans hl⟩
    | done => exact hx.trans hrest

/-- Taking samples out of `PCM` keeps the invariant (R70, R271). -/
theorem Inv.takePcm (h : Inv s) {xs : List Sample} (hx : List.Sublist xs s.pcm) : Inv { s with pcm := xs } :=
  { h with
    pcm_range := fun x hm => h.pcm_range x (hx.subset hm)
    session := sessionInv_pcm h.session hx.length_le }

theorem inv_popSample (h : Inv s) : Inv (popSample s) := (h.takePcm (List.tail_sublist _)).answer _

theorem inv_popEventRecord (h : Inv s) : Inv (popEventRecord s) :=
  { h with evt_tags := fun e he => h.evt_tags e (List.mem_of_mem_tail he) }

theorem inv_releasePrior (h : Inv s) (q : HostImpl) : Inv (releasePrior q s) := by
  unfold releasePrior
  split_ifs
  · exact (h.pushEvent ..).onHost fun h => nomatch h
  · exact h.onHost fun h => nomatch h
  · exact h

theorem inv_settle (h : Inv s) (q : HostImpl) (acquired : Bool) : Inv (settleTransmission q acquired s) := by
  have hr : Inv (onHost (fun h => { h with tx := false }) (releasePrior q s)) :=
    (inv_releasePrior h q).onHost (inv_releasePrior h q).host_job
  unfold settleTransmission
  split_ifs
  · exact (hr.takePcm (List.nil_sublist _)).onHost fun _ => rfl
  · exact hr.raise _
  · exact h.onHost h.host_job
  · exact h

theorem inv_play (h : Inv s) (n : Nat) : Inv (playSamples n s) :=
  h.onHost fun hj => by simpa using h.host_job hj

theorem inv_poll (h : Inv s) (hm : pollPlayback s = .next t) : Inv t := by
  unfold pollPlayback at hm
  split at hm
  · rename_i d hd hj
    split_ifs at hm <;> cases hm
    · exact h
    · exact (h.pushEvent ..).onHost fun _ => by simp [hd]
    · exact ((h.pushEvent ..).pushEvent ..).onHost fun hs => by simp [hj] at hs
  · cases hm; exact h

theorem inv_reportWrite (h : Inv s) (r : WriteResult) : Inv (reportWrite r s) := by
  cases r with
  | saved location => exact h.pushEvent ..
  | failed cause => exact h.raise _

@[simp] theorem keepFile_job (r : WriteResult) (image : List Byte) (h : HostSide) :
    (keepFile r image h).job = h.job := by cases r <;> rfl

@[simp] theorem keepFile_dev (r : WriteResult) (image : List Byte) (h : HostSide) :
    (keepFile r image h).dev = h.dev := by cases r <;> rfl

theorem inv_finishWrite (h : Inv s) (r : WriteResult) : Inv (finishWrite r s) := by
  unfold finishWrite
  split
  · exact h
  · exact ((inv_reportWrite h r).pushEvent ..).onHost fun h => nomatch h

theorem inv_finishOrphan (h : Inv s) (q : HostImpl) (k : Nat) (r : WriteResult) : Inv (finishOrphan q k r s) := by
  unfold finishOrphan
  split
  · exact h
  · split_ifs
    · exact (inv_reportWrite h r).onHost (by simpa using (inv_reportWrite h r).host_job)
    · exact h.onHost (by simpa using h.host_job)

theorem inv_stop (h : Inv s) (q : HostImpl) : Inv (stopTransmission q s) := by
  unfold stopTransmission
  split_ifs
  · exact (h.pushEvent ..).onHost fun h => nomatch h
  · exact h.pushEvent ..
  · exact h

/-- Every act of the host keeps the invariant (R270 to R280). -/
theorem inv_hostMove {a : HostAct} (h : Inv s) (hm : hostMove a s = .next t) : Inv t := by
  cases a with
  | popPcm => cases hm; exact inv_popSample h
  | popEvt => cases hm; exact inv_popEventRecord h
  | tapBits k => cases hm; exact h.answer _
  | transmit text settings =>
    simp only [hostMove] at hm
    split_ifs at hm
    cases hm; exact (h.inbox _).onHost h.host_job
  | settle acquired => cases hm; exact inv_settle h ..
  | play n => cases hm; exact inv_play h n
  | poll => exact inv_poll h hm
  | writeDone r => cases hm; exact inv_finishWrite h r
  | orphanDone k r => cases hm; exact inv_finishOrphan h ..
  | stop => cases hm; exact inv_stop h _

/-- Every step keeps the invariant, whoever moves. -/
theorem inv_step (h : Inv s) (hm : step s = .next t) : Inv t := by
  unfold step at hm
  split at hm
  · exact inv_sequencerMove h hm
  · exact inv_sequencerMove (h.inbox _) hm
  · obtain ⟨i, -, hi, he⟩ := hostRequest_eq_next hm
    exact inv_exec (h.inbox _) hi he
  · exact inv_hostMove (h.inbox _) hm

end Requests

/-- Settles O48: every channel is empty and no session runs. -/
theorem invariantAtReset : Obligations.InvariantAtReset := inv_reset

/-- Settles O49: the sequencer's moves, the host's requests and the host's acts each keep the invariant. -/
theorem invariantKept : Obligations.InvariantKept := fun _ _ => inv_step
end Sys2Proof.Machine

namespace Sys2Proof.Machine

/-! ## START and the moves after it (R241, R250) -/

/-! ### The operations do not look at the sequencer's position -/

theorem encodeElem_goTo (p : Impl) (v : Bool) (c : Elem) (ph : Phase) (s : State) :
    encodeElem p v c (goTo ph s) = goTo ph (encodeElem p v c s) := by
  simp only [encodeElem_eq]; rfl

theorem encodeBody_goTo (p : Impl) (v : Bool) (text : List Elem) (ph : Phase) (s : State) :
    encodeBody p v text (goTo ph s) = goTo ph (encodeBody p v text s) := by
  induction text generalizing s with
  | nil => rfl
  | cons c cs ih => rw [encodeBody, encodeElem_goTo]; exact ih (advanceText (encodeElem p v c s))

theorem encodeText_goTo (p : Impl) (text : List Elem) (v : Bool) (ph : Phase) (s : State) :
    encodeText p text v (goTo ph s) = goTo ph (encodeText p text v s) := by
  simp only [encodeText_eq]; rfl

theorem unitSegments_goTo (p : Impl) {c : SynParams} (h : fatalConfig c = none) {units : List UnitCode}
    (hu : ∀ u ∈ units, u ≠ 0b11#2) (ph : Phase) (s : State) :
    unitSegments p c units (goTo ph s) = mapNext (unitSegments p c units s) (goTo ph) := by
  induction units generalizing s with
  | nil => rfl
  | cons u us ih =>
    simp only [unitSegments, unitSegment_next p h (hu u (List.mem_cons_self ..)), mapNext_next, onNext_next]
    exact ih (fun w hw => hu w (List.mem_cons_of_mem _ hw)) (advanceUnit (runSegment p _ _ s))

/-! ### The moves of ENCODE and of SYNTHESIZE -/

/-- The five moves up to the character loop (R154, R162). -/
theorem runFor_enter {s : State} (hp : s.phase = .encoding (.textEvents 0)) (hi : s.inbox = []) (n : Nat) :
    runFor (n + 5) s = runFor n (goTo (.encoding .body) (startSequence Config.impl (encodeEnter s.txt s))) := by
  rw [runFor_succ hi (move_textEvent hp), runFor_succ (by exact hi) (move_encBegin rfl),
    runFor_succ (by exact hi) (move_start rfl), runFor_succ (by exact hi) (move_start rfl),
    runFor_succ (by exact hi) (move_start rfl)]
  rfl

/-- The three moves after the character loop (R161, R164). -/
theorem runFor_close {s : State} (hp : s.phase = .encoding (.close 0)) (hi : s.inbox = []) (n : Nat) :
    runFor (n + 3) s = runFor n (goTo (.synthesizing .check) (encodeFinish (closeSequence Config.impl s))) := by
  rw [runFor_succ hi (move_close hp), runFor_succ (by exact hi) (move_close rfl),
    runFor_succ (by exact hi) (move_summary rfl)]
  rfl

/-- The character loop leaves the pending slots alone. -/
theorem encodeBody_inbox (p : Impl) (v : Bool) (text : List Elem) (s : State) :
    (encodeBody p v text s).inbox = s.inbox := by
  obtain ⟨cur, h⟩ := encodeBody_eq p v text s
  rw [h]

/-- The moves of the encoder are ENCODE of the text (R151). -/
theorem runFor_encode {s : State} (hp : s.phase = .encoding (.textEvents 0)) (hi : s.inbox = []) (n : Nat) :
    runFor (s.txt.length + 9 + n) s =
      runFor n (goTo (.synthesizing .check) (encodeText Config.impl s.txt s.cfg.verbose s)) := by
  let s1 := startSequence Config.impl (encodeEnter s.txt s)
  have hbody := runFor_body s.txt (s := goTo (.encoding .body) s1) rfl (by simp [s1, startSequence, encodeEnter, hi])
    (by simp [s1, startSequence, encodeEnter])
  rw [encodeBody_goTo] at hbody
  rw [show s.txt.length + 9 + n = (s.txt.length + 1) + (n + 3) + 5 by omega, runFor_enter hp hi, runFor_add, hbody,
    onNext_next, runFor_close rfl (by simp [encodeBody_inbox, s1, startSequence, encodeEnter, hi])]
  rfl

@[simp] theorem synthesizeEnter_inbox (c : SynParams) (s : State) : (synthesizeEnter c s).inbox = s.inbox := by
  rw [synthesizeEnter_eq]

@[simp] theorem synthesizeEnter_cfg (c : SynParams) (s : State) : (synthesizeEnter c s).cfg = s.cfg := by
  rw [synthesizeEnter_eq]

@[simp] theorem synthesizeEnter_bits (c : SynParams) (s : State) : (synthesizeEnter c s).bits = s.bits := by
  rw [synthesizeEnter_eq]

@[simp] theorem synthesizeEnter_unitPos (c : SynParams) (s : State) : (synthesizeEnter c s).syn.unitPos = 0 := rfl

/-- The segments of the units go on, and leave the latched configuration and the pending slots alone. -/
theorem unitSegments_frame (p : Impl) {c : SynParams} (h : fatalConfig c = none) {units : List UnitCode}
    (hu : ∀ u ∈ units, u ≠ 0b11#2) (s : State) :
    ∃ t, unitSegments p c units s = .next t ∧ t.cfg = s.cfg ∧ t.inbox = s.inbox := by
  obtain ⟨y, -, -, hy⟩ := unitSegments_next p h units hu s
  exact ⟨_, hy, rfl, rfl⟩

/-- SYNTHESIZE on a legal configuration, from what the segments of the units come to (R191). -/
theorem synthesizeUnits_of_units {p : Impl} {c : SynParams} (h : fatalConfig c = none) {units : List UnitCode}
    {s t : State}
    (ht : unitSegments p c units (runSegment p c.markHz Config.preDuration (synthesizeEnter c s)) = .next t) :
    synthesizeUnits p units c s = .next (synthesizeFinish (runSegment p c.markHz Config.preDuration t)) := by
  simp only [synthesizeUnits, h, markTone_next _ h, onNext_next, ht, mapNext_next]

/-- The moves of the synthesizer on a legal configuration are SYNTHESIZE of the units, back to `IDLE` (R191). -/
theorem runFor_synthesize {s : State} (hp : s.phase = .synthesizing .check) (hi : s.inbox = [])
    (hf : fatalConfig s.cfg.params = none) (hu : ∀ u ∈ s.bits, u ≠ 0b11#2) (n : Nat) :
    runFor (s.bits.length + 5 + n) s =
      onNext (mapNext (synthesizeUnits Config.impl s.bits s.cfg.params s) (goTo .idle)) (runFor n) := by
  let s1 := runSegment Config.impl s.cfg.params.markHz Config.preDuration (synthesizeEnter s.cfg.params s)
  have hc1 : s1.cfg = s.cfg := by simp [s1]
  obtain ⟨s2, hs2, hc2, hi2⟩ := unitSegments_frame Config.impl hf hu s1
  rw [hc1] at hc2
  have hdata : runFor (s.bits.length + 1) (goTo (.synthesizing .data) s1) = .next (goTo (.synthesizing .post) s2) := by
    rw [runFor_data s.bits rfl (by simp [s1, hi]) (by simp [hc1, hf]) hu (by simp [s1]), goTo_cfg, hc1,
      unitSegments_goTo _ hf hu, hs2]
    rfl
  have hpre : goTo (.synthesizing .data) s1 = goTo (.synthesizing .data) (runSegment Config.impl s.cfg.params.markHz
      Config.preDuration (goTo (.synthesizing .pre) (synthesizeEnter s.cfg.params s))) := rfl
  rw [show s.bits.length + 5 + n = (s.bits.length + 1) + (n + 2) + 2 by omega, runFor_succ hi (move_check_ok hp hf),
    runFor_succ (by simp [hi]) (move_pre rfl (by simp [hf])), goTo_cfg, synthesizeEnter_cfg, ← hpre, runFor_add, hdata,
    onNext_next, runFor_succ (by simp [hi2, s1, hi]) (move_post rfl (by simp [hc2, hf])),
    runFor_succ (by simp [hi2, s1, hi]) (move_done rfl), synthesizeUnits_of_units hf hs2, goTo_cfg, hc2]
  rfl

/-- SYNTHESIZE on a legal configuration goes on at whatever position, and leaves the position and the pending slots
alone. -/
theorem synthesizeUnits_goTo (p : Impl) {c : SynParams} (h : fatalConfig c = none) {units : List UnitCode}
    (hu : ∀ u ∈ units, u ≠ 0b11#2) (s : State) :
    ∃ t, synthesizeUnits p units c s = .next t ∧ t.phase = s.phase ∧ t.inbox = s.inbox ∧
      ∀ ph, synthesizeUnits p units c (goTo ph s) = .next (goTo ph t) :=
  ⟨_, synthesizeUnits_ok p h units hu s, rfl, rfl, fun ph => synthesizeUnits_ok p h units hu (goTo ph s)⟩

/-! ### START in one piece -/

/-- A fatal condition of the configuration ends the session, wherever it stood (R308). -/
theorem raise_fatalConfig {c : SynParams} {e : ErrorKind} (h : fatalConfig c = some e) (s : State) :
    (raise e s).phase = .idle ∧ ∀ ph, raise e (goTo ph s) = raise e s := by
  unfold fatalConfig at h
  split_ifs at h <;> cases h <;> exact ⟨rfl, fun _ => rfl⟩

/-- An element gives at most a marker and its own symbol (R160). -/
theorem symbolStep_length_le (p : Impl) (m : Mode) (c : Elem) : (symbolStep p m c).1.length ≤ 2 := by
  unfold symbolStep
  split
  · simp
  · simp
  · split_ifs <;> simp

theorem bodySymbols_length_le (p : Impl) (m : Mode) (text : List Elem) :
    (bodySymbols p m text).length ≤ 2 * text.length := by
  induction text generalizing m with
  | nil => simp [bodySymbols]
  | cons c cs ih =>
    have := symbolStep_length_le p m c
    have := ih (symbolStep p m c).2
    simp only [bodySymbols, List.length_append, List.length_cons]
    omega

/-- A text gives at most `40 + 16 × len` units (R166). -/
theorem textUnits_length_le (p : Impl) (text : List Elem) :
    (unitsOf p (textSymbols p text)).length ≤ 40 + 16 * text.length := by
  have := bodySymbols_length_le p .lat text
  simp only [unitsOf_length, textSymbols, startSymbols, closeSymbols, List.length_append, List.length_cons,
    List.length_nil]
  omega

theorem startCommand_blank {s : State} (hp : s.phase = .idle) (hb : blank s.txt = true) :
    startCommand s = .next (raise .emptyInput (openSession s)) := by
  simp [startCommand, guardText, hp, hb]

theorem startCommand_text {s : State} (hp : s.phase = .idle) (hb : blank s.txt = false) :
    startCommand s = .next (goTo (.encoding (.textEvents 0)) (openSession s)) := by
  simp [startCommand, goTo, hp, hb]

theorem wholeSession_blank (p : Impl) {s : State} (hp : s.phase = .idle) (hb : blank s.txt = true) :
    wholeSession p s = .next (raise .emptyInput (openSession s)) := by
  simp [wholeSession, hp, hb]

/-- Not blank, START is SYNTHESIZE of what ENCODE of the text has left (R241). -/
theorem wholeSession_text (p : Impl) {s t : State} (hp : s.phase = .idle) (hb : blank s.txt = false)
    (ht : t = encodeText p s.txt s.verbose (openSession s)) :
    wholeSession p s = synthesizeUnits p t.bits t.cfg.params t := by
  simp [wholeSession, hp, hb, ht]

/-- The units of a session are those of its text, none of them reserved (R96). -/
theorem encodeText_openSession_units (p : Impl) (s : State) :
    ∀ u ∈ (encodeText p s.txt s.verbose (openSession s)).bits, u ≠ 0b11#2 := by
  simpa [encodeText_eq] using unitsOf_units p (textSymbols p s.txt)

/-- The moves from `S_CHECK` on come to SYNTHESIZE, whether the configuration is legal or not (R191). -/
theorem runFor_check {t : State} (hp : t.phase = .idle) (hi : t.inbox = []) (hu : ∀ u ∈ t.bits, u ≠ 0b11#2) {n : Nat}
    (hn : t.bits.length + 5 ≤ n) :
    runFor n (goTo (.synthesizing .check) t) = synthesizeUnits Config.impl t.bits t.cfg.params t := by
  cases hf : fatalConfig t.cfg.params with
  | some e =>
    obtain ⟨hidle, hany⟩ := raise_fatalConfig hf t
    have hcheck : sequencerMove (goTo (.synthesizing .check) t) = .next (raise e t) := by
      rw [move_check_fatal rfl (by exact hf), hany]
    obtain ⟨m, rfl⟩ : ∃ m, n = m + 1 := ⟨n - 1, by omega⟩
    rw [runFor_succ (by simp [hi]) hcheck, runFor_idle hidle (by simp [hi]), synthesizeUnits_fatal _ hf]
  | none =>
    obtain ⟨m, rfl⟩ := Nat.exists_eq_add_of_le hn
    obtain ⟨u, hsyn, hup, hui, hgo⟩ := synthesizeUnits_goTo Config.impl hf hu t
    have hback : goTo .idle (goTo (.synthesizing .check) u) = u := by rw [← hp, ← hup]; rfl
    have hrun := runFor_synthesize (s := goTo (.synthesizing .check) t) rfl hi hf hu m
    rw [goTo_bits, goTo_cfg, hgo, mapNext_next, hback, onNext_next, runFor_idle (hup.trans hp) (hui.trans hi)] at hrun
    rw [hrun, hsyn]

/-- A session of a text that is not blank, move by move, comes to what START is as one transaction (R241). -/
theorem runFor_session {s : State} (hp : s.phase = .idle) (hi : s.inbox = []) (hb : blank s.txt = false) {n : Nat}
    (hn : 54 + 17 * s.txt.length ≤ n) :
    runFor n (goTo (.encoding (.textEvents 0)) (openSession s)) = wholeSession Config.impl s := by
  have hlen := textUnits_length_le Config.impl s.txt
  obtain ⟨m, rfl⟩ : ∃ m, n = s.txt.length + 9 + m := ⟨n - s.txt.length - 9, by omega⟩
  have henc := runFor_encode (s := goTo (.encoding (.textEvents 0)) (openSession s)) rfl hi m
  rw [encodeText_goTo] at henc
  rw [wholeSession_text _ hp hb rfl]
  refine henc.trans (runFor_check (t := encodeText _ s.txt s.verbose (openSession s)) ?_ ?_
    (encodeText_openSession_units _ _) ?_)
  · simp [encodeText_eq, hp]
  · simp [encodeText_eq, hi]
  · simp only [encodeText_eq, openSession_bits, List.nil_append]
    omega

/-- START and enough moves of the sequencer come to what START is as one transaction, blank text or not (R241). -/
theorem runFor_startCommand {s : State} (hp : s.phase = .idle) (hi : s.inbox = []) {n : Nat}
    (hn : 54 + 17 * s.txt.length ≤ n) : onNext (startCommand s) (runFor n) = wholeSession Config.impl s := by
  cases hb : blank s.txt with
  | true =>
    rw [startCommand_blank hp hb, onNext_next, runFor_idle rfl (by simp [hi]), wholeSession_blank _ hp hb]
  | false => rw [startCommand_text hp hb, onNext_next, runFor_session hp hi hb hn]

/-- Settles O51: the START, the encoder's moves and the synthesizer's moves, joined; what is left of the `n` steps finds
the machine idle. -/
theorem sessionIsOneTransaction : Obligations.SessionIsOneTransaction := by
  intro s n hp hi hn
  obtain ⟨n, rfl⟩ : ∃ m, n = m + 1 := ⟨n - 1, by omega⟩
  have hstep : step s = startCommand { s with inbox := [] } := by unfold step; rw [hi]; rfl
  rw [runFor, hstep]
  exact runFor_startCommand (s := { s with inbox := [] }) hp rfl (by show 54 + 17 * s.txt.length ≤ n; omega)

/-! ## No carry-over (R44, R353) -/

/-- Two runs, one from events `e` and one from events `e'`, agree on the latched configuration and on everything a
session leaves, and have appended the same events. -/
structure SameOutcome (e e' : List Event) (t t' : State) : Prop where
  cfg : t.cfg = t'.cfg
  bits : t.bits = t'.bits
  pcm : t.pcm = t'.pcm
  result : t.result = t'.result
  totalUnits : t.totalUnits = t'.totalUnits
  totalSamples : t.totalSamples = t'.totalSamples
  volClamped : t.volClamped = t'.volClamped
  unsupSeen : t.unsupSeen = t'.unsupSeen
  evt : ∃ es, t.evt = e ++ es ∧ t'.evt = e' ++ es

namespace SameOutcome

variable {e e' : List Event} {t t' : State}

theorem evt_append (h : SameOutcome e e' t t') (xs : List Event) :
    ∃ es, t.evt ++ xs = e ++ es ∧ t'.evt ++ xs = e' ++ es := by
  obtain ⟨es, h1, h2⟩ := h.evt
  exact ⟨es ++ xs, by simp [h1], by simp [h2]⟩

theorem raise (h : SameOutcome e e' t t') (k : ErrorKind) : SameOutcome e e' (raise k t) (raise k t') := by
  have hp : SameOutcome e e' (pushEvent (errorKindOf k) (errorPayload k) t)
      (pushEvent (errorKindOf k) (errorPayload k) t') := { h with evt := h.evt_append _ }
  cases k with
  | emptyInput | invalidBaud _ | invalidMark | invalidSpace => exact { hp with result := rfl }
  | unsupportedCharacter _ => exact { hp with unsupSeen := rfl }
  | invalidVolume _ => exact { hp with volClamped := rfl }
  | deviceAcquisitionFailure | persistenceFailure _ => exact hp

theorem encodeText (h : SameOutcome e e' t t') (p : Impl) (text : List Elem) (v : Bool) :
    SameOutcome e e' (encodeText p text v t) (encodeText p text v t') := by
  simp only [encodeText_eq]
  exact { h with
    bits := congrArg (· ++ _) h.bits
    totalUnits := rfl
    unsupSeen := congrArg (· || _) h.unsupSeen
    evt := h.evt_append _ }

/-- SYNTHESIZE of the same units with the same configuration (R191). -/
theorem synthesizeUnits (h : SameOutcome e e' t t') (p : Impl) {units : List UnitCode} (hu : ∀ u ∈ units, u ≠ 0b11#2)
    (c : SynParams) :
    ∃ u u', synthesizeUnits p units c t = .next u ∧ synthesizeUnits p units c t' = .next u' ∧
      SameOutcome e e' u u' := by
  cases hf : fatalConfig c with
  | some k => exact ⟨_, _, synthesizeUnits_fatal p hf _ _, synthesizeUnits_fatal p hf _ _, h.raise k⟩
  | none =>
    exact ⟨_, _, synthesizeUnits_ok p hf _ hu _, synthesizeUnits_ok p hf _ hu _, { h with
      pcm := congrArg (· ++ _) h.pcm
      totalSamples := rfl
      result := rfl
      volClamped := congrArg (· || _) h.volClamped
      evt := h.evt_append _ }⟩

end SameOutcome

/-- Settles O53: START opens the two sessions alike, and each part of it keeps them alike. -/
theorem noCarryOver : Obligations.NoCarryOver := by
  intro p s s' hp hp' htxt hbaud hmark hspace hvol hverb
  have hopen : SameOutcome s.evt s'.evt (openSession s) (openSession s') :=
    { cfg := by simp [hbaud, hmark, hspace, hvol, hverb]
      bits := rfl, pcm := rfl, result := rfl, totalUnits := rfl, totalSamples := rfl, volClamped := rfl
      unsupSeen := rfl, evt := ⟨[], by simp⟩ }
  have hrun : ∃ t t', wholeSession p s = .next t ∧ wholeSession p s' = .next t' ∧ SameOutcome s.evt s'.evt t t' := by
    cases hb : blank s.txt with
    | true => exact ⟨_, _, wholeSession_blank p hp hb, wholeSession_blank p hp' (htxt ▸ hb), hopen.raise _⟩
    | false =>
      have henc := hopen.encodeText p s.txt s.verbose
      rw [wholeSession_text p hp hb rfl, wholeSession_text p hp' (htxt ▸ hb) rfl, ← htxt, ← hverb, ← henc.bits,
        ← henc.cfg]
      exact henc.synthesizeUnits p (encodeText_openSession_units p s) _
  obtain ⟨t, t', ht, ht', h⟩ := hrun
  obtain ⟨es, hes, hes'⟩ := h.evt
  exact ⟨t, t', es, ht, ht', h.bits, h.pcm, h.result, h.totalUnits, h.totalSamples, h.volClamped, h.unsupSeen, hes, hes'⟩

end Sys2Proof.Machine

namespace Sys2Proof.Machine

/-! ## The configuration latch (R34, R247, R348) -/

/-- A register write, in full: it reaches the five configuration registers and nothing else (R247). -/
theorem writeConfig_eq (n : Nat) (v : BitVec 64) (s : State) : writeConfig n v s = { s with
    baudCb := if n = 2 then v.setWidth 32 else s.baudCb
    markHz := if n = 3 then v.setWidth 16 else s.markHz
    spaceHz := if n = 4 then v.setWidth 16 else s.spaceHz
    volPct := if n = 5 then v.setWidth 8 else s.volPct
    verbose := if n = 6 then v.getLsbD 0 else s.verbose } := by
  unfold writeConfig
  split <;> simp_all

/-- A write of a register other than `CMD` goes on in every `STATE` (R247, R348). -/
theorem exec_regWr {n : Nat} (h1 : 1 ≤ n) (h8 : n ≤ 8) (v : BitVec 64) (s : State) :
    exec (.regWr n v) s = .next (writeConfig n v s) := by
  simp [exec, execRegWr, h8, Nat.ne_of_gt h1]

section Commute

variable (n : Nat) (v : BitVec 64) (s : State)

theorem writeConfig_phase : (writeConfig n v s).phase = s.phase := by rw [writeConfig_eq]

theorem writeConfig_cfg : (writeConfig n v s).cfg = s.cfg := by rw [writeConfig_eq]

theorem encodeElem_writeConfig (p : Impl) (vb : Bool) (c : Elem) :
    encodeElem p vb c (writeConfig n v s) = writeConfig n v (encodeElem p vb c s) := by
  simp only [writeConfig_eq, encodeElem_eq]

theorem raise_writeConfig (e : ErrorKind) : raise e (writeConfig n v s) = writeConfig n v (raise e s) := by
  simp only [writeConfig_eq]
  cases e <;> rfl

theorem synthesizeEnter_writeConfig (c : SynParams) :
    synthesizeEnter c (writeConfig n v s) = writeConfig n v (synthesizeEnter c s) := by
  simp only [writeConfig_eq, synthesizeEnter_eq]

theorem seg_writeConfig (p : Impl) (f : BitVec 16) (d : Rat) :
    seg p f d (writeConfig n v s) = mapNext (seg p f d s) (writeConfig n v) := by
  unfold seg
  split_ifs
  · rfl
  · rfl
  · simp only [writeConfig_eq, runSegment, mapNext_next]

theorem goTo_writeConfig (ph : Phase) : goTo ph (writeConfig n v s) = writeConfig n v (goTo ph s) := by
  simp only [writeConfig_eq, goTo]

theorem advanceUnit_writeConfig : advanceUnit (writeConfig n v s) = writeConfig n v (advanceUnit s) := by
  simp only [writeConfig_eq, advanceUnit]

theorem advanceText_writeConfig : advanceText (writeConfig n v s) = writeConfig n v (advanceText s) := by
  simp only [writeConfig_eq, advanceText]

theorem emitKey_writeConfig (p : Impl) (k : Key) : emitKey p k (writeConfig n v s) = writeConfig n v (emitKey p k s) := by
  simp only [writeConfig_eq, emitKey]

theorem unitSegment_writeConfig (p : Impl) (c : SynParams) (u : UnitCode) :
    unitSegment p c u (writeConfig n v s) = mapNext (unitSegment p c u s) (writeConfig n v) := by
  unfold unitSegment
  split_ifs
  · rfl
  · exact seg_writeConfig ..

/-- Two changes of the state that commute do so behind any outcome. -/
theorem mapNext_comm {f g : State → State} (h : ∀ s, f (g s) = g (f s)) (o : Outcome) :
    mapNext (mapNext o g) f = mapNext (mapNext o f) g := by
  cases o with
  | next s => exact congrArg Host.Outcome.next (h s)
  | fault r => rfl
  | refused r => rfl

theorem bodyMove_writeConfig : bodyMove (writeConfig n v s) = mapNext (bodyMove s) (writeConfig n v) := by
  have hw : (writeConfig n v s).txt[(writeConfig n v s).enc.txtPos]? = s.txt[s.enc.txtPos]? := by rw [writeConfig_eq]
  cases hc : s.txt[s.enc.txtPos]? with
  | none => rw [bodyMove_none hc, bodyMove_none (hw.trans hc), mapNext_next, goTo_writeConfig]
  | some c =>
    rw [bodyMove_some hc, bodyMove_some (hw.trans hc), mapNext_next, writeConfig_cfg, encodeElem_writeConfig,
      advanceText_writeConfig]

theorem dataMove_writeConfig : dataMove (writeConfig n v s) = mapNext (dataMove s) (writeConfig n v) := by
  have hw : (writeConfig n v s).bits[(writeConfig n v s).syn.unitPos]? = s.bits[s.syn.unitPos]? := by rw [writeConfig_eq]
  cases hu : s.bits[s.syn.unitPos]? with
  | none => rw [dataMove_none hu, dataMove_none (hw.trans hu), mapNext_next, goTo_writeConfig]
  | some u =>
    rw [dataMove_some hu, dataMove_some (hw.trans hu), writeConfig_cfg, unitSegment_writeConfig,
      mapNext_comm (advanceUnit_writeConfig n v)]

theorem checkMove_writeConfig : checkMove (writeConfig n v s) = mapNext (checkMove s) (writeConfig n v) := by
  unfold checkMove
  rw [writeConfig_cfg]
  cases fatalConfig s.cfg.params with
  | some e => exact congrArg Host.Outcome.next (raise_writeConfig ..)
  | none =>
    show Host.Outcome.next _ = Host.Outcome.next _
    rw [synthesizeEnter_writeConfig, goTo_writeConfig]

/-- PRE and POST read the latched configuration (R34, R197). -/
theorem markMove_writeConfig (ph : Phase) :
    mapNext (markTone Config.impl (writeConfig n v s).cfg.params (writeConfig n v s)) (goTo ph) =
      mapNext (mapNext (markTone Config.impl s.cfg.params s) (goTo ph)) (writeConfig n v) := by
  rw [writeConfig_cfg, markTone, seg_writeConfig, mapNext_comm (goTo_writeConfig n v · ph)]
  rfl

/-- A register write can stand before or after any move of the sequencer (R34, R348). -/
theorem sequencerMove_writeConfig :
    sequencerMove (writeConfig n v s) = mapNext (sequencerMove s) (writeConfig n v) := by
  have hw := writeConfig_phase n v s
  cases hp : s.phase with
  | idle => rw [move_idle hp, move_idle (hw.trans hp), mapNext_next]
  | encoding e =>
    cases e with
    | textEvents k =>
      match k with
      | 0 =>
        rw [move_textEvent hp, move_textEvent (hw.trans hp), mapNext_next]
        simp only [writeConfig_eq, goTo, textEvent, pushEvent]
      | 1 =>
        rw [move_encBegin hp, move_encBegin (hw.trans hp), mapNext_next]
        simp only [writeConfig_eq, goTo, encodeBegin, pushEvent]
    | start k =>
      rw [move_start hp, move_start (hw.trans hp), mapNext_next, emitKey_writeConfig, goTo_writeConfig]
    | body => rw [move_body hp, move_body (hw.trans hp), bodyMove_writeConfig]
    | close k =>
      rw [move_close hp, move_close (hw.trans hp), mapNext_next, emitKey_writeConfig, goTo_writeConfig]
    | summary =>
      rw [move_summary hp, move_summary (hw.trans hp), mapNext_next]
      simp only [writeConfig_eq, goTo, encodeFinish, pushEvent]
  | synthesizing q =>
    cases q with
    | check => simp only [sequencerMove, hp, hw.trans hp, checkMove_writeConfig]
    | pre =>
      simp only [sequencerMove, hp, hw.trans hp]
      exact markMove_writeConfig ..
    | data => rw [move_data hp, move_data (hw.trans hp), dataMove_writeConfig]
    | post =>
      simp only [sequencerMove, hp, hw.trans hp]
      exact markMove_writeConfig ..
    | done =>
      rw [move_done hp, move_done (hw.trans hp), mapNext_next]
      simp only [writeConfig_eq, goTo, synthesizeFinish]

end Commute

/-- Settles O54: the write is `writeConfig`, which no move of the sequencer reads. -/
theorem configurationLatch : Obligations.ConfigurationLatch := fun n v s h1 h8 =>
  ⟨writeConfig n v, exec_regWr h1 h8 v, sequencerMove_writeConfig n v s, writeConfig_cfg n v s⟩

end Sys2Proof.Machine

namespace Sys2Proof.Machine

/-! ## Commands, registers, text and reset -/

/-- Settles O2: each word is read by the decoder's own branches. -/
theorem decodeWords : Obligations.DecodeWords :=
  ⟨rfl, rfl, rfl, rfl, rfl, rfl, rfl, rfl, rfl, rfl, rfl, rfl, rfl, rfl, rfl, rfl, rfl, rfl, rfl, rfl, rfl, rfl, rfl,
    rfl, rfl, rfl, rfl, rfl, rfl, rfl, rfl, rfl, rfl, rfl⟩

/-- START while busy is refused (R244). -/
theorem startCommand_busy {s : State} (hp : s.phase ≠ .idle) : startCommand s = .refused .startWhileBusy := by
  rw [startCommand, if_pos hp]

/-- Settles O23: START opens the session, takes the error of a blank text, or is refused. -/
theorem startMeaning : Obligations.StartMeaning := by
  intro s
  refine ⟨startCommand_text, fun hp hb => ?_, startCommand_busy⟩
  have hidle : raise .emptyInput (openSession s) = { raise .emptyInput (openSession s) with phase := s.phase } := by
    rw [hp]; rfl
  exact (startCommand_blank hp hb).trans (congrArg _ hidle)

/-- Settles O24: both rows answer the state they are given. -/
theorem nopAndStop : Obligations.NopAndStop := fun _ => ⟨rfl, rfl⟩

theorem writeCommand_reserved {b : Byte} (h : 3 ≤ b.toNat) (s : State) :
    writeCommand b s = .refused (.reservedCommand b) := by
  unfold writeCommand; split
  case h_4 => rfl
  all_goals omega

/-- Writing a byte to `CMD` runs the instruction the byte decodes to (R30, R247). -/
theorem writeCommand_eq (b : Byte) (s : State) : writeCommand b s = exec (decodeCmd b) s := by
  by_cases h : 3 ≤ b.toNat
  · rw [decodeCmd_reserved h, writeCommand_reserved h]; rfl
  · have : b = 0 ∨ b = 1 ∨ b = 2 := by bv_omega
    rcases this with rfl | rfl | rfl <;> rfl

/-- Settles O25: a write of register 0 is the command its low byte decodes to. -/
theorem commandRegister : Obligations.CommandRegister := fun _ s => ⟨writeCommand_eq _ s, rfl⟩

/-- Settles O30: each value stands in `State.reset`. -/
theorem resetValues : Obligations.ResetValues := ⟨rfl, rfl, rfl, rfl, rfl, rfl, rfl, rfl, rfl, rfl, rfl, rfl, rfl⟩

/-- Settles O31: `resetCore` written out. -/
theorem resetInput : Obligations.ResetInput := fun _ => rfl

/-- Joining two words is adding their numbers, the high one shifted. -/
theorem toNat_append_eq_add {m n : Nat} (x : BitVec m) (y : BitVec n) : (x ++ y).toNat = x.toNat * 2 ^ n + y.toNat := by
  rw [BitVec.toNat_append, ← Nat.shiftLeft_add_eq_or_of_lt y.isLt, Nat.shiftLeft_eq]

/-- `STATUS` is the sum of its fields at their places (R31). -/
theorem statusWord_toNat (s : State) : (statusWord s).toNat =
    s.phase.code.toNat + 4 * s.result.code.toNat + 32 * s.volClamped.toNat + 64 * s.unsupSeen.toNat := by
  simp only [statusWord, toNat_append_eq_add, BitVec.toNat_ofBool, Bool.toNat_false]
  ring

theorem ctrlWord_toNat (s : State) : (ctrlWord s).toNat = s.verbose.toNat := by
  rw [ctrlWord, toNat_append_eq_add, BitVec.toNat_ofBool]; simp

/-- REGRD returns the register and changes nothing else (R247). -/
theorem exec_regRd {n bits : Nat} {s : State} (h : readRegister n s = some bits) :
    exec (.regRd n) s = .next { s with ret := .reg n bits } := by
  simp only [exec, execRegRd, h]; rfl

theorem mul_boolToNat (n : Nat) (b : Bool) : n * b.toNat = if b = true then n else 0 := by cases b <;> simp

/-- Settles O27: `STATUS` and `CTRL` by their fields, the other registers as they stand. -/
theorem registerReads : Obligations.RegisterReads := by
  intro s
  refine ⟨exec_regRd (congrArg some ?_), rfl, rfl, rfl, rfl, exec_regRd (congrArg some ?_), rfl, rfl⟩
  · rw [statusWord_toNat, mul_boolToNat, mul_boolToNat]
    cases s.phase <;> cases s.result <;> rfl
  · rw [ctrlWord_toNat, ← one_mul s.verbose.toNat, mul_boolToNat]

/-- Settles O28: each register takes the low bits of the value, or ignores it. -/
theorem registerWrites : Obligations.RegisterWrites := by
  intro v s
  have hbit : v.getLsbD 0 = decide (v.toNat % 2 = 1) := Nat.testBit_zero _
  refine ⟨rfl, rfl, rfl, rfl, rfl, ?_, rfl, rfl⟩
  rw [← hbit]; rfl

/-- Settles O29: the three checks of TXTWR in the model's order. -/
theorem textWrite : Obligations.TextWrite := by
  intro text s
  show (_ → _ → _ → execTxtWr text s = _) ∧ (_ → execTxtWr text s = _) ∧ (_ → _ → execTxtWr text s = _) ∧
    (_ → _ → _ → execTxtWr text s = _)
  unfold execTxtWr
  refine ⟨fun hp hl hs => ?_, fun hp => ?_, fun hp hs => ?_, fun hp hs hl => ?_⟩
  · rw [if_neg (not_not.2 hp), if_neg (by simp [hs]), if_neg (not_lt.2 hl)]
  · rw [if_pos hp]
  · rw [if_neg (not_not.2 hp), if_pos hs]
  · rw [if_neg (not_not.2 hp), if_neg (by simp [hs]), if_pos hl]

end Sys2Proof.Machine

namespace Sys2Proof.Machine

/-! ## What a session leaves (R192 to R194, R241, R242, R308) -/

/-- A fatal condition of the configuration, taken: one warning, `INVALID_CONFIG`, the session over, nothing else
(R192, R193, R308). -/
theorem raise_fatalConfig_eq {c : SynParams} {e : ErrorKind} (h : fatalConfig c = some e) (s : State) :
    raise e s = { s with
      evt := s.evt ++ [⟨.invalidConfig, .warn, errorPayload e⟩]
      result := .invalidConfig
      phase := .idle } := by
  unfold fatalConfig at h
  split_ifs at h <;> cases h <;> rfl

theorem volumeOutside_eq (c : SynParams) : volumeOutside c = decide (volumeOf c < 0 ∨ 100 < volumeOf c) :=
  (Bool.decide_or _ _).symm

theorem volumeOutside_iff (c : SynParams) : volumeOutside c = true ↔ volumeOf c < 0 ∨ 100 < volumeOf c := by
  rw [volumeOutside_eq, decide_eq_true_iff]

theorem not_supported (c : Elem) : (!supported c) = (rowOf (upper c)).isNone := Option.not_isSome _

/-- What START of a text that is not blank has made of the state once ENCODE is done (R151, R241). -/
theorem encodeText_openSession (p : Impl) (s : State) :
    encodeText p s.txt s.verbose (openSession s) = { openSession s with
      mode := bodyMode p .lat s.txt
      bits := unitsOf p (textSymbols p s.txt)
      evt := s.evt ++ textEvents p s.verbose s.txt
      totalUnits := 8 * (textSymbols p s.txt).length
      unsupSeen := s.txt.any fun c => (rowOf (upper c)).isNone
      enc := Config.freeEnc s.fresh
      fresh := s.fresh + 1 } := by
  simp [encodeText_eq, not_supported]

/-- Settles O52: a blank text ends in the guard, another in the first fatal condition or in a whole synthesis. -/
theorem sessionOutcome : Obligations.SessionOutcome := by
  intro p s c hp hc
  cases hb : blank s.txt with
  | true => exact ⟨_, wholeSession_blank p hp hb, rfl, rfl, fun _ => ⟨rfl, rfl, rfl, rfl, rfl, rfl⟩, nofun⟩
  | false =>
    have hu := encodeText_openSession_units p s
    have hsyn := wholeSession_text p hp hb rfl
    rw [encodeText_openSession] at hu hsyn
    have hcfg : (openSession s).cfg.params = c := hc.symm
    rw [hcfg] at hsyn
    have hlen := (unitsOf_length p (textSymbols p s.txt)).symm
    cases hf : fatalConfig c with
    | some e =>
      rw [synthesizeUnits_fatal p hf, raise_fatalConfig_eq hf] at hsyn
      refine ⟨_, hsyn, rfl, rfl, nofun, fun _ => ⟨rfl, hlen, rfl, rfl, ?_, nofun⟩⟩
      rintro _ ⟨⟩
      exact ⟨rfl, rfl, rfl, rfl, rfl⟩
    | none =>
      rw [synthesizeUnits_ok p hf _ hu] at hsyn
      -- `PCM` was emptied by START; a `rfl` here would run the synthesis
      have hpcm := List.nil_append (samplesOf p (volumeFraction c) 0 (segmentList c (unitsOf p (textSymbols p s.txt))))
      refine ⟨_, hsyn, hp, rfl, nofun, fun _ => ⟨rfl, hlen, rfl, rfl, nofun, fun _ => ?_⟩⟩
      refine ⟨rfl, hpcm, congrArg List.length hpcm.symm, rfl, volumeOutside_eq c, ?_⟩
      simp only [volumeOutside_iff]
      rfl

end Sys2Proof.Machine


namespace Sys2Proof.Machine

/-! ## What the host reaches (R64, R65, R70, R290) -/

/-- The part of the state the host reaches: `PCM`, `EVT`, the value returned, the pending slots, its own side. -/
structure HostPart where
  pcm : List Sample
  evt : List Event
  ret : Ret
  inbox : List Slot
  hostSide : HostSide

/-- The state with another host's part. -/
def State.withHost (h : HostPart) (s : State) : State :=
  { s with pcm := h.pcm, evt := h.evt, ret := h.ret, inbox := h.inbox, hostSide := h.hostSide }

/-- `t` is `s` but for the host's part. -/
def HostReaches (s t : State) : Prop := ∃ h : HostPart, t = s.withHost h

namespace HostReaches

variable {s t : State}

theorem refl (s : State) : HostReaches s s := ⟨⟨s.pcm, s.evt, s.ret, s.inbox, s.hostSide⟩, rfl⟩

theorem eq (h : HostReaches s t) :
    t = { s with pcm := t.pcm, evt := t.evt, ret := t.ret, inbox := t.inbox, hostSide := t.hostSide } := by
  obtain ⟨h, rfl⟩ := h; rfl

theorem takePcm (h : HostReaches s t) (xs : List Sample) : HostReaches s { t with pcm := xs } := by
  obtain ⟨h, rfl⟩ := h; exact ⟨{ h with pcm := xs }, rfl⟩

theorem takeEvt (h : HostReaches s t) (es : List Event) : HostReaches s { t with evt := es } := by
  obtain ⟨h, rfl⟩ := h; exact ⟨{ h with evt := es }, rfl⟩

theorem request (h : HostReaches s t) (ib : List Slot) : HostReaches s { t with inbox := ib } := by
  obtain ⟨h, rfl⟩ := h; exact ⟨{ h with inbox := ib }, rfl⟩

theorem answer (h : HostReaches s t) (r : Ret) : HostReaches s (answer r t) := by
  obtain ⟨h, rfl⟩ := h; exact ⟨{ h with ret := r }, rfl⟩

theorem onHost (h : HostReaches s t) (f : HostSide → HostSide) : HostReaches s (onHost f t) := by
  obtain ⟨h, rfl⟩ := h; exact ⟨{ h with hostSide := f h.hostSide }, rfl⟩

theorem pushEvent (h : HostReaches s t) (k : EvKind) (pl : Payload) : HostReaches s (pushEvent k pl t) := h.takeEvt _

/-- The host's own errors append their event and change nothing else (R304). -/
theorem reportWrite (h : HostReaches s t) (r : WriteResult) : HostReaches s (reportWrite r t) := by
  cases r <;> exact h.pushEvent ..

theorem releasePrior (h : HostReaches s t) (q : HostImpl) : HostReaches s (releasePrior q t) := by
  unfold Machine.releasePrior
  split_ifs
  · exact (h.pushEvent ..).onHost _
  · exact h.onHost _
  · exact h

theorem settleTransmission (h : HostReaches s t) (q : HostImpl) (acquired : Bool) :
    HostReaches s (settleTransmission q acquired t) := by
  have hr := (h.releasePrior q).onHost fun h => { h with tx := false }
  unfold Machine.settleTransmission
  split_ifs
  · exact (hr.takePcm []).onHost _
  · exact hr.pushEvent ..
  · exact h.onHost _
  · exact h

theorem finishWrite (h : HostReaches s t) (r : WriteResult) : HostReaches s (finishWrite r t) := by
  unfold Machine.finishWrite
  split
  · exact h
  · exact ((h.reportWrite r).pushEvent ..).onHost _

theorem finishOrphan (h : HostReaches s t) (q : HostImpl) (k : Nat) (r : WriteResult) :
    HostReaches s (finishOrphan q k r t) := by
  unfold Machine.finishOrphan
  split
  · exact h
  · split_ifs
    · exact (h.reportWrite r).onHost _
    · exact h.onHost _

theorem stopTransmission (h : HostReaches s t) (q : HostImpl) : HostReaches s (stopTransmission q t) := by
  unfold Machine.stopTransmission
  split_ifs
  · exact (h.pushEvent ..).onHost _
  · exact h.pushEvent ..
  · exact h

end HostReaches

theorem hostReaches_poll {s t : State} (hm : pollPlayback s = .next t) : HostReaches s t := by
  have h := HostReaches.refl s
  unfold pollPlayback at hm
  split at hm
  · split_ifs at hm <;> cases hm
    · exact h
    · exact (h.pushEvent ..).onHost _
    · exact ((h.pushEvent ..).pushEvent ..).onHost _
  · cases hm; exact h

/-- Every act of the host stays within the host's part (R246, R275, R290). -/
theorem hostReaches_hostMove {a : HostAct} {s t : State} (hm : hostMove a s = .next t) : HostReaches s t := by
  have h := HostReaches.refl s
  cases a with
  | popPcm => cases hm; exact (h.takePcm _).answer _
  | popEvt => cases hm; exact (h.takeEvt _).answer _
  | tapBits k => cases hm; exact h.answer _
  | transmit text settings =>
    simp only [hostMove] at hm
    split_ifs at hm
    cases hm; exact (h.request _).onHost _
  | settle acquired => cases hm; exact h.settleTransmission ..
  | play n => cases hm; exact h.onHost _
  | poll => exact hostReaches_poll hm
  | writeDone r => cases hm; exact h.finishWrite r
  | orphanDone k r => cases hm; exact h.finishOrphan ..
  | stop => cases hm; exact h.stopTransmission _

/-- Settles O55: every act stays within the host's part, and the accesses are written out. -/
theorem hostFrame : Obligations.HostFrame := by
  refine ⟨fun a s t hm => (hostReaches_hostMove hm).eq, fun s => ⟨?_, ?_, ?_, ?_, fun _ => rfl, fun _ => rfl⟩⟩
  · intro x xs h; simp [hostMove, popSample, answer, h]
  · intro h; simp [hostMove, popSample, answer, h]
  · intro e es h; simp [hostMove, popEventRecord, answer, h]
  · intro h; simp [hostMove, popEventRecord, answer, h]

/-! ## The sequencer does not read it (R64, R65, R290) -/

/-- What a move appends to the two channels of a host's part. -/
def HostPart.append (h : HostPart) (xs : List Sample) (es : List Event) : HostPart :=
  { h with pcm := h.pcm ++ xs, evt := h.evt ++ es }

@[simp] theorem HostPart.append_nil (h : HostPart) : h.append [] [] = h := by simp [HostPart.append]

/-- From `s` the sequencer moves to `t`, and it moves so whatever stands in the host's part, appending the same samples
and the same events. -/
def MovesAlike (s t : State) : Prop :=
  ∃ xs es, ∀ h : HostPart, sequencerMove (s.withHost h) = .next (t.withHost (h.append xs es))

/-- A move that appends nothing. -/
theorem movesAlike_silent {s t : State} (h : ∀ x : HostPart, sequencerMove (s.withHost x) = .next (t.withHost x)) :
    MovesAlike s t := ⟨[], [], by simpa using h⟩

/-- A move that appends events. -/
theorem movesAlike_events {s t : State} (es : List Event)
    (h : ∀ x : HostPart, sequencerMove (s.withHost x) = .next (t.withHost { x with evt := x.evt ++ es })) :
    MovesAlike s t := ⟨[], es, by simpa [HostPart.append] using h⟩

/-! ### The operations -/

theorem raise_withHost (e : ErrorKind) (h : HostPart) (s : State) : raise e (s.withHost h) =
    (raise e s).withHost { h with evt := h.evt ++ [eventOf (errorKindOf e) (errorPayload e)] } := by
  cases e <;> rfl

theorem encodeElem_withHost (p : Impl) (v : Bool) (c : Elem) (h : HostPart) (s : State) :
    encodeElem p v c (s.withHost h) =
      (encodeElem p v c s).withHost { h with evt := h.evt ++ elemEvents p v c } := by
  simp only [encodeElem_eq]; rfl

/-- The warning of `S_CHECK` about the volume (R194). -/
def volumeEvents (c : SynParams) : List Event :=
  if volumeOutside c then [eventOf .invalidConfig (.config .volume (volumeOf c))] else []

theorem synthesizeEnter_withHost (c : SynParams) (h : HostPart) (s : State) : synthesizeEnter c (s.withHost h) =
    (synthesizeEnter c s).withHost { h with evt := h.evt ++ volumeEvents c } := by
  simp only [synthesizeEnter_eq]; rfl

/-- A segment appends its samples and reads nothing of the host's part (R198, R200). -/
theorem seg_withHost {p : Impl} {f : BitVec 16} {d : Rat} {s t : State} (hm : seg p f d s = .next t) (h : HostPart) :
    seg p f d (s.withHost h) =
      .next (t.withHost (h.append (segmentSamples p s.theta f (sampleCount p d) s.syn.v) [])) := by
  obtain ⟨hf, hd, rfl⟩ := seg_eq_next hm
  rw [seg_next p hf hd]
  simp [runSegment, State.withHost, HostPart.append]

theorem unitSegment_withHost {p : Impl} {c : SynParams} {u : UnitCode} {s t : State}
    (hm : unitSegment p c u s = .next t) :
    ∃ xs, ∀ h : HostPart, unitSegment p c u (s.withHost h) = .next (t.withHost (h.append xs [])) := by
  unfold unitSegment at hm ⊢
  split_ifs at hm ⊢
  exact ⟨_, seg_withHost hm⟩

/-! ### The moves -/

section Alike

variable {s t : State}

theorem movesAlike_body (hp : s.phase = .encoding .body) (hm : bodyMove s = .next t) : MovesAlike s t := by
  have hbody (h : HostPart) : sequencerMove (s.withHost h) = bodyMove (s.withHost h) := move_body hp
  cases hc : s.txt[s.enc.txtPos]? with
  | none =>
    rw [bodyMove_none hc] at hm; cases hm
    exact movesAlike_silent fun h => (hbody h).trans (bodyMove_none hc)
  | some c =>
    rw [bodyMove_some hc] at hm; cases hm
    refine movesAlike_events (elemEvents Config.impl s.cfg.verbose c) fun h => ?_
    rw [hbody, bodyMove_some (s := s.withHost h) hc, encodeElem_withHost]
    rfl

theorem movesAlike_check (hp : s.phase = .synthesizing .check) (hm : sequencerMove s = .next t) : MovesAlike s t := by
  cases hf : fatalConfig s.cfg.params with
  | some e =>
    rw [move_check_fatal hp hf] at hm; cases hm
    refine movesAlike_events [eventOf (errorKindOf e) (errorPayload e)] fun h => ?_
    rw [move_check_fatal (s := s.withHost h) hp hf, raise_withHost]
  | none =>
    rw [move_check_ok hp hf] at hm; cases hm
    refine movesAlike_events (volumeEvents s.cfg.params) fun h => ?_
    rw [move_check_ok (s := s.withHost h) hp hf, synthesizeEnter_withHost]
    rfl

/-- PRE and POST run the mark tone, then the sequencer goes on (R197, R203). -/
theorem movesAlike_mark {ph : Phase}
    (hmove : ∀ x : State, x.phase = s.phase → sequencerMove x = mapNext (markTone Config.impl x.cfg.params x) (goTo ph))
    (hm : sequencerMove s = .next t) : MovesAlike s t := by
  rw [hmove s rfl] at hm
  obtain ⟨u, hu, rfl⟩ := mapNext_eq_next hm
  exact ⟨_, _, fun h => (hmove (s.withHost h) rfl).trans (congrArg (mapNext · (goTo ph)) (seg_withHost hu h))⟩

theorem movesAlike_data (hp : s.phase = .synthesizing .data) (hm : dataMove s = .next t) : MovesAlike s t := by
  have hdata (h : HostPart) : sequencerMove (s.withHost h) = dataMove (s.withHost h) := move_data hp
  cases hu : s.bits[s.syn.unitPos]? with
  | none =>
    rw [dataMove_none hu] at hm; cases hm
    exact movesAlike_silent fun h => (hdata h).trans (dataMove_none hu)
  | some u =>
    rw [dataMove_some hu] at hm
    obtain ⟨r, hr, rfl⟩ := mapNext_eq_next hm
    obtain ⟨xs, hxs⟩ := unitSegment_withHost hr
    refine ⟨xs, [], fun h => ?_⟩
    rw [hdata, dataMove_some (s := s.withHost h) hu]
    exact congrArg (mapNext · advanceUnit) (hxs h)

/-- No move of the sequencer reads the host's part (R290). -/
theorem movesAlike_sequencerMove (hm : sequencerMove s = .next t) : MovesAlike s t := by
  cases hp : s.phase with
  | idle =>
    rw [move_idle hp] at hm; cases hm
    exact movesAlike_silent fun h => move_idle hp
  | encoding e =>
    cases e with
    | textEvents k =>
      match k with
      | 0 =>
        rw [move_textEvent hp] at hm; cases hm
        exact movesAlike_events [eventOf .text (.text s.txt)] fun h => move_textEvent hp
      | 1 =>
        rw [move_encBegin hp] at hm; cases hm
        exact movesAlike_events [eventOf .encBegin .none] fun h => move_encBegin hp
    | start k =>
      rw [move_start hp] at hm; cases hm
      exact movesAlike_silent fun h => move_start hp
    | body => rw [move_body hp] at hm; exact movesAlike_body hp hm
    | close k =>
      rw [move_close hp] at hm; cases hm
      exact movesAlike_silent fun h => move_close hp
    | summary =>
      rw [move_summary hp] at hm; cases hm
      exact movesAlike_events [eventOf .encSummary (.count s.enc.unitCnt)] fun h => move_summary hp
  | synthesizing q =>
    cases q with
    | check => exact movesAlike_check hp hm
    | pre => exact movesAlike_mark (fun x hx => by simp only [sequencerMove, hx.trans hp]; rfl) hm
    | data => rw [move_data hp] at hm; exact movesAlike_data hp hm
    | post => exact movesAlike_mark (fun x hx => by simp only [sequencerMove, hx.trans hp]; rfl) hm
    | done =>
      rw [move_done hp] at hm; cases hm
      exact movesAlike_silent fun h => move_done hp

end Alike

/-- Settles O56: the move is the same for every host's part; for the part `s` has itself it tells what `t` holds. -/
theorem coreIgnoresHost : Obligations.CoreIgnoresHost := by
  intro s s' t hs' hm
  obtain ⟨xs, es, hmove⟩ := movesAlike_sequencerMove hm
  have ht : t = t.withHost (HostPart.append ⟨s.pcm, s.evt, s.ret, s.inbox, s.hostSide⟩ xs es) := by
    injection hm.symm.trans (hmove ⟨s.pcm, s.evt, s.ret, s.inbox, s.hostSide⟩)
  refine ⟨xs, es, congrArg State.pcm ht, congrArg State.evt ht, ?_⟩
  have := hmove ⟨s'.pcm, s'.evt, s'.ret, s'.inbox, s'.hostSide⟩
  exact (congrArg sequencerMove hs').trans this

end Sys2Proof.Machine

namespace Sys2Proof.Machine

/-! ## The WAV file (R79, R80) -/

/-- `n` bytes hold a number up to `256 ^ n` (R67). -/
theorem fromLittleEndian_littleEndian (n x : Nat) : fromLittleEndian (littleEndian n x) = x % 256 ^ n := by
  induction n generalizing x with
  | zero => simp [littleEndian, fromLittleEndian, Nat.mod_one]
  | succ n ih => rw [littleEndian, fromLittleEndian, ih, Nat.pow_succ', Nat.mod_mul]; simp

/-- The two bytes of a sample, the low one first (R80). -/
theorem sampleBytes_eq (x : Sample) : sampleBytes x = [x.setWidth 8, (x >>> 8).setWidth 8] := by
  have hlo : BitVec.ofNat 8 x.toNat = x.setWidth 8 := by bv_omega
  have hhi : BitVec.ofNat 8 (x.toNat / 256) = (x >>> 8).setWidth 8 := by bv_omega
  simp [sampleBytes, littleEndian, hlo, hhi]

theorem samplesBytes_cons (x : Sample) (xs : List Sample) :
    samplesBytes (x :: xs) = x.setWidth 8 :: (x >>> 8).setWidth 8 :: samplesBytes xs := by
  rw [samplesBytes, sampleBytes_eq]; rfl

@[simp] theorem samplesBytes_length (xs : List Sample) : (samplesBytes xs).length = 2 * xs.length := by
  induction xs with
  | nil => rfl
  | cons x xs ih => simp only [samplesBytes_cons, List.length_cons, ih]; omega

/-- A sample is its two bytes put together. -/
theorem sample_of_bytes (x : Sample) : (x >>> 8).setWidth 8 ++ x.setWidth 8 = x := by
  apply BitVec.eq_of_toNat_eq
  rw [toNat_append_eq_add]
  bv_omega

/-- The data bytes read back are the samples (R80). -/
theorem readSamples_samplesBytes (xs : List Sample) : readSamples (samplesBytes xs) = some xs := by
  induction xs with
  | nil => rfl
  | cons x xs ih => rw [samplesBytes_cons, readSamples, ih, sample_of_bytes]; rfl

/-- Sample `k` stands in the bytes `2 × k` and `2 × k + 1` of the data (R80). -/
theorem samplesBytes_getElem? {xs : List Sample} {k : Nat} {x : Sample} (h : xs[k]? = some x) :
    (samplesBytes xs)[2 * k]? = some (x.setWidth 8) ∧ (samplesBytes xs)[2 * k + 1]? = some ((x >>> 8).setWidth 8) := by
  induction xs generalizing k with
  | nil => cases h
  | cons y ys ih =>
    rw [samplesBytes_cons]
    cases k with
    | zero => cases h; exact ⟨rfl, rfl⟩
    | succ k => exact ih h

/-- The 44 bytes of the table of R79, for `n` bytes of data. -/
def headerBytes (n : Nat) : List Byte :=
  [0x52, 0x49, 0x46, 0x46, BitVec.ofNat 8 (n + 36), BitVec.ofNat 8 ((n + 36) / 256),
    BitVec.ofNat 8 ((n + 36) / 256 / 256), BitVec.ofNat 8 ((n + 36) / 256 / 256 / 256), 0x57, 0x41, 0x56, 0x45,
    0x66, 0x6D, 0x74, 0x20, 0x10, 0x00, 0x00, 0x00, 0x01, 0x00, 0x01, 0x00,
    0x44, 0xAC, 0x00, 0x00, 0x88, 0x58, 0x01, 0x00, 0x02, 0x00, 0x10, 0x00,
    0x64, 0x61, 0x74, 0x61, BitVec.ofNat 8 n, BitVec.ofNat 8 (n / 256), BitVec.ofNat 8 (n / 256 / 256),
    BitVec.ofNat 8 (n / 256 / 256 / 256)]

theorem wavHeader_eq (n : Nat) : wavHeader n = headerBytes (2 * n) := by
  simp [wavHeader, wavTags, littleEndian, headerBytes]

theorem wavImage_eq (buffer : List Sample) :
    wavImage buffer = headerBytes (2 * buffer.length) ++ samplesBytes buffer := by
  rw [wavImage, wavHeader_eq]

theorem headerBytes_length (n : Nat) : (headerBytes n).length = 44 := rfl

theorem wavImage_length (buffer : List Sample) : (wavImage buffer).length = 44 + 2 * buffer.length := by
  rw [wavImage_eq, List.length_append, headerBytes_length, samplesBytes_length]

theorem wavImage_header (buffer : List Sample) : (wavImage buffer).take 44 = headerBytes (2 * buffer.length) := by
  rw [wavImage_eq]; exact List.take_left' (headerBytes_length _)

theorem wavImage_data (buffer : List Sample) : (wavImage buffer).drop 44 = samplesBytes buffer := by
  rw [wavImage_eq]; exact List.drop_left' (headerBytes_length _)

theorem wavImage_getElem? (buffer : List Sample) (i : Nat) :
    (wavImage buffer)[44 + i]? = (samplesBytes buffer)[i]? := by
  rw [← List.getElem?_drop, wavImage_data]

/-- The four tags stand in their places (R79). -/
theorem wavImage_tags (buffer : List Sample) :
    (wavImage buffer).take 4 = wavTags.1 ∧ ((wavImage buffer).drop 8).take 4 = wavTags.2.1 ∧
      ((wavImage buffer).drop 12).take 4 = wavTags.2.2.1 ∧ ((wavImage buffer).drop 36).take 4 = wavTags.2.2.2 := by
  rw [wavImage_eq]; exact ⟨rfl, rfl, rfl, rfl⟩

/-- The fields of the header a reader reads as numbers (R79). -/
theorem wavImage_fields (buffer : List Sample) :
    ((wavImage buffer).drop 22).take 2 = littleEndian 2 1 ∧ ((wavImage buffer).drop 24).take 4 = littleEndian 4 44100 ∧
      ((wavImage buffer).drop 34).take 2 = littleEndian 2 16 ∧
      ((wavImage buffer).drop 40).take 4 = littleEndian 4 (2 * buffer.length) := by
  rw [wavImage_eq]; exact ⟨rfl, rfl, rfl, rfl⟩

/-- Reading the image back (R80). -/
theorem wavParse_wavImage {buffer : List Sample} (h : 2 * buffer.length + 36 < 2 ^ 32) :
    wavParse (wavImage buffer) = some { sampleRate := 44100, channels := 1, bitDepth := 16, samples := buffer } := by
  obtain ⟨hchannels, hrate, hdepth, hsize⟩ := wavImage_fields buffer
  have hfits : 2 * buffer.length % 256 ^ 4 = 2 * buffer.length := Nat.mod_eq_of_lt (by omega)
  have hdata : ((wavImage buffer).drop 44).take (2 * buffer.length) = samplesBytes buffer := by
    rw [wavImage_data]; exact List.take_of_length_le (samplesBytes_length buffer).le
  rw [wavParse, if_pos (wavImage_tags buffer), hchannels, hrate, hdepth, hsize]
  simp only [fromLittleEndian_littleEndian, hfits, hdata, readSamples_samplesBytes, Option.map_some]
  rfl

/-- Settles O60: the header has 44 bytes whatever its size fields hold, and the data is two bytes for each sample. -/
theorem wavRoundTrip : Obligations.WavRoundTrip := by
  intro buffer h
  refine ⟨wavParse_wavImage h, wavImage_length buffer, fun n hn => ?_, fun k x hx => ?_⟩
  · rw [wavImage_header, ← hn]
    simp [headerBytes, Nat.div_div_eq_div_mul]
  · obtain ⟨hlo, hhi⟩ := samplesBytes_getElem? hx
    exact ⟨(wavImage_getElem? ..).trans hlo,
      (congrArg ((wavImage buffer)[·]?) (show 45 + 2 * k = 44 + (2 * k + 1) by omega)).trans
        ((wavImage_getElem? ..).trans hhi)⟩

end Sys2Proof.Machine

namespace Sys2Proof.Machine

/-! ## Steps (R77, R151, R191, R290) -/

section Request

variable {s : State} {c : Code} {rest : List Slot}

theorem step_request (h : s.inbox = .request c :: rest) : step s = hostRequest c { s with inbox := rest } := by
  unfold step; rw [h]

theorem hostRequest_runs {i : Instr} (hd : decode c = .ok i) (hi : hostMayIssue i = true) (s : State) :
    hostRequest c s = exec i s := by
  unfold hostRequest; rw [hd]; exact if_pos hi

theorem hostRequest_notAHostRequest {i : Instr} (hd : decode c = .ok i) (hi : hostMayIssue i = false) (s : State) :
    hostRequest c s = .refused .notAHostRequest := by
  unfold hostRequest; rw [hd]; exact if_neg (by simp [hi])

theorem hostRequest_undecoded {e : DecodeError} (hd : decode c = .rejected e) (s : State) :
    hostRequest c s = .refused (.undecoded e) := by
  unfold hostRequest; rw [hd]

end Request

/-- Every command is the host's to issue (R30, R290). -/
theorem hostMayIssue_decodeCmd (b : Byte) : hostMayIssue (decodeCmd b) = true := by
  unfold decodeCmd; split <;> rfl

/-- A bare word that the table decoder reads is a command byte (log 4). -/
theorem decode_tableCode {nbits w : Nat} {i : Instr} (h : decodeTableWord nbits w = some i) :
    decode (tableCode w) = .ok i ∧ hostMayIssue i = true := by
  unfold decodeTableWord at h
  split_ifs at h
  cases h
  exact ⟨rfl, hostMayIssue_decodeCmd _⟩

/-- What the host may issue, listed (R290; log 6). -/
theorem hostMayIssue_iff (i : Instr) : hostMayIssue i = true ↔
    i ∈ [.nop, .start, .stop, .reset, .evPlaybackFinished, .evTxComplete, .evTxStopped, .evDeviceFail] ∨
    (∃ b, i = .cmdReserved b) ∨ (∃ n, i = .regRd n) ∨ (∃ n v, i = .regWr n v) ∨ (∃ t, i = .txtWr t) ∨
    (∃ k, i = .lookup k) ∨ (∃ c, i = .upper c) ∨ (∃ k, i = .modeOf k) ∨
    (∃ θ v, i = .amp θ v) ∨ (∃ t, i = .evPersistFail t) ∨ ∃ t, i = .evSaved t := by
  cases i <;> simp [hostMayIssue]

/-- Settles O46: the request at the head of the pending slots, by what it decodes to. -/
theorem stepRunsRequest : Obligations.StepRunsRequest := by
  refine ⟨fun c rest s h => ⟨fun i hd hi => ?_, fun i hd hi => ?_, fun e hd => ?_⟩, fun nbits w i s hw => ?_,
    hostMayIssue_iff⟩
  · rw [step_request h, hostRequest_runs hd hi]
  · rw [step_request h, hostRequest_notAHostRequest hd hi]
  · rw [step_request h, hostRequest_undecoded hd]
  · obtain ⟨hd, hi⟩ := decode_tableCode hw
    exact (step_request rfl).trans (hostRequest_runs hd hi s)

/-- A step the sequencer is due, with the slot that says so taken (R20; log 2). -/
theorem step_core {s : State} {rest : List Slot} (h : s.inbox = .core :: rest ∨ s.inbox = [] ∧ rest = []) :
    step s = sequencerMove { s with inbox := rest } := by
  rcases h with h | ⟨h, rfl⟩
  · unfold step; rw [h]
  · rw [step_sequencer h, ← h]

section Core

variable {s : State} {rest : List Slot} (h : s.inbox = .core :: rest ∨ s.inbox = [] ∧ rest = [])
include h

/-- The sequencer's step in the body of ENCODE (R151). -/
theorem step_body (hp : s.phase = .encoding .body) : step s = bodyMove { s with inbox := rest } :=
  (step_core h).trans (move_body (by exact hp))

/-- The sequencer's step in the data part of SYNTHESIZE (R191). -/
theorem step_data (hp : s.phase = .synthesizing .data) : step s = dataMove { s with inbox := rest } :=
  (step_core h).trans (move_data (by exact hp))

end Core

/-- An element that decodes has its row run, once `CUR` is written (R151, R155). -/
theorem bodyMove_decoded {s : State} {c : Elem} {i : Instr} (hc : s.txt[s.enc.txtPos]? = some c)
    (hd : decode (.elem (upper c)) = .ok i) : bodyMove s = mapNext (exec i (readElem c s)) advanceText := by
  unfold bodyMove; rw [hc]; simp only [hd]

/-- An element that does not decode takes `UnsupportedCharacter` (R156). -/
theorem bodyMove_rejected {s : State} {c : Elem} {e : DecodeError} (hc : s.txt[s.enc.txtPos]? = some c)
    (hd : decode (.elem (upper c)) = .rejected e) :
    bodyMove s = .next (advanceText (raise (.unsupportedCharacter (upper c)) (readElem c s))) := by
  unfold bodyMove; rw [hc]; simp only [hd]

/-- The next unit has the row it decodes to run (R191). -/
theorem dataMove_decoded {s : State} {u : UnitCode} (hu : s.bits[s.syn.unitPos]? = some u) :
    dataMove s = mapNext (exec (decodeUnit u) s) advanceUnit := by
  unfold dataMove; rw [hu]

/-- Settles O47: the step is the move of the position, on the state with its slot taken. -/
theorem stepRunsSymbolOrUnit : Obligations.StepRunsSymbolOrUnit := by
  rintro rest s _ h rfl
  refine ⟨fun c hp hc => ⟨fun i hd => ?_, fun e hd => ?_⟩, fun u i hp hu hd => ?_⟩
  · exact (step_body h hp).trans (bodyMove_decoded (by exact hc) hd)
  · exact (step_body h hp).trans (bodyMove_rejected (by exact hc) hd)
  · cases hd
    exact (step_data h hp).trans (dataMove_decoded (by exact hu))

end Sys2Proof.Machine

namespace Sys2Proof.Machine

/-! ## Frames (R90 to R92) -/

@[simp] theorem bitOfUnit_unitOfBit (b : Bool) : bitOfUnit (unitOfBit b) = some b := by cases b <;> rfl

/-- A unit that reads as a bit is the unit that bit is sent as (R91). -/
theorem eq_unitOfBit_of_bitOfUnit {u : UnitCode} {b : Bool} (h : bitOfUnit u = some b) : u = unitOfBit b := by
  unfold bitOfUnit at h
  split_ifs at h with h0 h1 <;> cases h
  · exact h0
  · exact h1

/-- The bits of a frame are read back (R90). -/
@[simp] theorem parseFrame_frame (code : Code5) : parseFrame (frame code) = some code := by simp [parseFrame, frame]

/-- Eight units that read as a frame are the frame of what is read. -/
theorem eq_frame_of_parseFrame {us : List UnitCode} {code : Code5} (h : parseFrame us = some code) :
    us = frame code := by
  unfold parseFrame at h
  split at h
  case h_1 s d1 d2 d3 d4 d5 p t =>
    split_ifs at h with hfixed
    obtain ⟨rfl, rfl, rfl⟩ := hfixed
    split at h
    case h_1 b1 b2 b3 b4 b5 h1 h2 h3 h4 h5 =>
      cases h
      simp only [frame, eq_unitOfBit_of_bitOfUnit h1, eq_unitOfBit_of_bitOfUnit h2, eq_unitOfBit_of_bitOfUnit h3,
        eq_unitOfBit_of_bitOfUnit h4, eq_unitOfBit_of_bitOfUnit h5]
    case h_2 => cases h
  case h_2 => cases h

/-- The first frame of a sequence is cut off and read, the rest is read on (R92, R99). -/
theorem parseFrames_frame_append {n : Nat} {us : List UnitCode} {cs : List Code5} (h : parseFrames n us = some cs)
    (code : Code5) : parseFrames (n + 1) (frame code ++ us) = some (code :: cs) := by
  have htake : (frame code ++ us).take 8 = frame code := List.take_left' (frame_length code)
  have hdrop : (frame code ++ us).drop 8 = us := List.drop_left' (frame_length code)
  obtain ⟨u, rest, hcons⟩ : ∃ u rest, frame code ++ us = u :: rest := ⟨_, _, rfl⟩
  rw [hcons] at htake hdrop ⊢
  rw [parseFrames, htake, hdrop, parseFrame_frame, h]

theorem parseFrames_flatMap_frame (cs : List Code5) : parseFrames cs.length (cs.flatMap frame) = some cs := by
  induction cs with
  | nil => rfl
  | cons code cs ih => exact parseFrames_frame_append ih code

theorem flatMap_frame_length (cs : List Code5) : (cs.flatMap frame).length = 8 * cs.length := by
  simp [List.length_flatMap, mul_comm]

/-- Settles O4: one way by induction on the codes, frame by frame; the other by the units of one frame. -/
theorem framesReadBack : Obligations.FramesReadBack :=
  ⟨fun cs => ⟨flatMap_frame_length cs, parseFrames_flatMap_frame cs⟩, fun _ _ => eq_frame_of_parseFrame⟩

/-- Settles O3: the frame written out. -/
theorem fieldAssembly : Obligations.FieldAssembly := fun _ _ => rfl

/-! ## Codes with no meaning (R96, R112) -/

theorem unitSegment_reserved (p : Impl) (c : SynParams) (s : State) :
    unitSegment p c 0b11#2 s = .refused .reservedUnit := rfl

/-- The units before the first reserved one have their segments run; there the list is refused (R96, R191). -/
theorem unitSegments_reserved (p : Impl) {c : SynParams} (h : fatalConfig c = none) {units : List UnitCode}
    (hu : 0b11#2 ∈ units) (s : State) : unitSegments p c units s = .refused .reservedUnit := by
  induction units generalizing s with
  | nil => cases hu
  | cons u us ih =>
    rw [unitSegments]
    by_cases h3 : u = 0b11#2
    · rw [h3, unitSegment_reserved, mapNext_refused, onNext_refused]
    · rw [unitSegment_next p h h3, mapNext_next, onNext_next]
      exact ih ((List.mem_cons.1 hu).resolve_left (Ne.symm h3)) _

theorem synthesizeUnits_reserved (p : Impl) {c : SynParams} (h : fatalConfig c = none) {units : List UnitCode}
    (hu : 0b11#2 ∈ units) (s : State) : synthesizeUnits p units c s = .refused .reservedUnit := by
  simp only [synthesizeUnits, h, markTone_next p h, onNext_next, unitSegments_reserved p h hu, onNext_refused,
    mapNext_refused]

/-- While no session runs, the SYNTHESIZE row is SYNTHESIZE of its operands (R190). -/
theorem exec_synthesize_idle {s : State} (hp : s.phase = .idle) (units : List UnitCode) (c : SynParams) :
    exec (.synthesize units c) s = synthesizeUnits Config.impl units c s := if_neg (not_not.2 hp)

/-- Settles O40: the preamble runs, and the segments of the units come to the reserved one. -/
theorem synthesizeReserved : Obligations.SynthesizeReserved := by
  intro units c s hp hb hm hsp hu
  rw [exec_synthesize_idle hp]
  exact synthesizeUnits_reserved _ (fatalConfig_eq_none.2 ⟨hb, hm, hsp⟩) hu s

theorem readRegister_eq_none {n : Nat} (h : 9 ≤ n) (s : State) : readRegister n s = none := by
  unfold readRegister; split
  case h_10 => rfl
  all_goals omega

/-- There is no register above 8 to read (R71, R112). -/
theorem exec_regRd_noSuchRegister {n : Nat} (h : 9 ≤ n) (s : State) :
    exec (.regRd n) s = .refused (.noSuchRegister n) := by
  simp only [exec, execRegRd, readRegister_eq_none h]

/-- There is no register above 8 to write (R71, R112). -/
theorem exec_regWr_noSuchRegister {n : Nat} (h : 9 ≤ n) (v : BitVec 64) (s : State) :
    exec (.regWr n v) s = .refused (.noSuchRegister n) := by
  simp only [exec, execRegWr]
  rw [if_neg (by omega), if_neg (by omega)]

/-- Settles O26: the reserved unit and command by their rows, the register numbers by the two accesses. -/
theorem reservedRefused : Obligations.ReservedRefused := fun s =>
  ⟨rfl, fun _ hb => ⟨congrArg Decoded.ok (decodeCmd_reserved hb), rfl⟩,
    fun _ hn => ⟨exec_regRd_noSuchRegister hn s, fun v => exec_regWr_noSuchRegister hn v s⟩⟩

/-! ## Markers, event rows, errors (R99, R108, R110, R158, R308) -/

/-- The row of a marker is the marker of its mode (R158). -/
theorem exec_marker {i : Instr} {m : Mode}
    (h : (i, m) ∈ [(Instr.markLat, Mode.lat), (.markFigs, .figs), (.markRus, .rus)]) (s : State) :
    exec i s = .next (emitMarker Config.impl m s) := by
  simp only [List.mem_cons, Prod.mk.injEq, List.not_mem_nil, or_false] at h
  obtain ⟨rfl, rfl⟩ | ⟨rfl, rfl⟩ | ⟨rfl, rfl⟩ := h <;> rfl

/-- Settles O12: `emitMarker` written out. -/
theorem markerSymbols : Obligations.MarkerSymbols := fun _ _ h s => exec_marker h s

/-- Settles O43: each row is `pushEvent` of its kind. -/
theorem coreEvents : Obligations.CoreEvents := fun _ _ _ _ _ _ _ => ⟨rfl, rfl, rfl, rfl, rfl, rfl, rfl⟩

/-- Settles O44: each row is `pushEvent` of its kind. -/
theorem hostEvents : Obligations.HostEvents := fun _ _ => ⟨rfl, rfl, rfl, rfl, rfl, rfl⟩

/-- Settles O45: each kind by its branches of `ErrorKind.code`, `ErrorKind.fatal` and `errorEffect`. -/
theorem takingErrors : Obligations.TakingErrors :=
  ⟨fun _ _ _ _ => rfl, fun _ _ _ _ _ => ⟨rfl, rfl, rfl, rfl, rfl, rfl, rfl, rfl⟩⟩

end Sys2Proof.Machine

namespace Sys2Proof.Machine

/-! ## The keys of the table and their classes (R133 to R135) -/

/-- The table of R133, on the number of a character. -/
def rowClassAt (n : Nat) : Option RowClass :=
  if 0x41 ≤ n ∧ n ≤ 0x5A then some (.needs .lat)
  else if (0x30 ≤ n ∧ n ≤ 0x39) ∨ n ∈ [0x2D, 0x2B, 0x3F, 0x3A, 0x28, 0x29, 0x2E, 0x2C, 0x2F] ∨
      n ∈ [0x428, 0x429, 0x42D, 0x42E, 0x427] then some (.needs .figs)
  else if (0x410 ≤ n ∧ n ≤ 0x42F) ∨ n = 0x401 then some (.needs .rus)
  else if n = 0x20 then some .neutral
  else if n = 0x0D ∨ n = 0x0A then some .ctrl
  else none

/-- A character is in a list of characters when its number is in the list of their numbers. -/
theorem mem_map_ofNat_iff {ns : List Nat} (h : ∀ n ∈ ns, n < 2 ^ 21) (c : Elem) :
    c ∈ ns.map (BitVec.ofNat 21) ↔ c.toNat ∈ ns := by
  rw [List.mem_map]
  constructor
  · rintro ⟨n, hn, rfl⟩
    rwa [BitVec.toNat_ofNat, Nat.mod_eq_of_lt (h n hn)]
  · exact fun hc => ⟨c.toNat, hc, by simp⟩

theorem ite_some_or {α : Type} (p : Prop) [Decidable p] (a : α) (o : Option α) :
    (if p then some a else none).or o = if p then some a else o := by
  split_ifs <;> rfl

/-- A search among rows of one class answers that class on exactly their characters. -/
theorem find?_map_cls {rows : List SymRow} {cls : RowClass} (h : ∀ r ∈ rows, r.cls = cls) {ns : List Nat}
    (hns : rows.map SymRow.elem = ns.map (BitVec.ofNat 21)) (hlt : ∀ n ∈ ns, n < 2 ^ 21) (c : Elem) :
    (rows.find? fun r => r.elem == c).map SymRow.cls = if c.toNat ∈ ns then some cls else none := by
  simp only [← mem_map_ofNat_iff hlt c, ← hns]
  cases hf : rows.find? fun r => r.elem == c with
  | none =>
    have hc : c ∉ rows.map SymRow.elem := by simpa using hf
    rw [if_neg hc]; rfl
  | some r =>
    have hr : r ∈ rows := List.mem_of_find?_eq_some hf
    have hc : r.elem = c := by simpa using List.find?_some hf
    rw [if_pos (List.mem_map.2 ⟨r, hr, hc⟩), Option.map_some, h r hr]

theorem latRows_cls (c : Elem) : (latRows.find? fun r => r.elem == c).map SymRow.cls =
    if c.toNat ∈ List.range' 0x41 26 then some (.needs .lat) else none :=
  find?_map_cls (by decide) (by decide) (by decide) c

theorem figRows_cls (c : Elem) : (figRows.find? fun r => r.elem == c).map SymRow.cls =
    if c.toNat ∈ List.range' 0x30 10 ++ [0x2D, 0x2B, 0x3F, 0x3A, 0x28, 0x29, 0x2E, 0x2C, 0x2F] ++
      [0x428, 0x429, 0x42D, 0x42E, 0x427] then some (.needs .figs) else none :=
  find?_map_cls (by decide) (by decide) (by decide) c

theorem rusRows_cls (c : Elem) : (rusRows.find? fun r => r.elem == c).map SymRow.cls =
    if c.toNat ∈ List.range' 0x410 23 ++ [0x42A, 0x42B, 0x42C, 0x42F, 0x401] then some (.needs .rus) else none :=
  find?_map_cls (by decide) (by decide) (by decide) c

theorem otherRows_cls (c : Elem) : (otherRows.find? fun r => r.elem == c).map SymRow.cls =
    if c.toNat ∈ [0x20] then some .neutral else if c.toNat ∈ [0x0D, 0x0A] then some .ctrl else none := by
  have hsp := find?_map_cls (rows := otherRows.take 1) (cls := .neutral) (ns := [0x20])
    (by decide) (by decide) (by decide) c
  have hctrl := find?_map_cls (rows := otherRows.drop 1) (cls := .ctrl) (ns := [0x0D, 0x0A])
    (by decide) (by decide) (by decide) c
  rw [← List.take_append_drop 1 otherRows, List.find?_append, Option.map_or, hsp, hctrl, ite_some_or]

/-- The class of the row of a character is that of the table of R133: the parts of the table are searched in turn, and
the letters U+0410 to U+042F that are not in `rusRows` are the five of `figRows` (R135). -/
theorem rowOf_map_cls (c : Elem) : (rowOf c).map SymRow.cls = rowClassAt c.toNat := by
  unfold rowOf symRows rowClassAt
  simp only [List.find?_append, Option.map_or, latRows_cls, figRows_cls, rusRows_cls, otherRows_cls, Option.or_assoc,
    ite_some_or, List.mem_append, List.mem_range'_1, List.mem_cons, List.not_mem_nil, or_false]
  refine if_congr (by omega) rfl (ite_congr (propext (by omega)) (fun _ => rfl) fun hfigs =>
    if_congr (by omega) rfl rfl)

/-- The keys LOOKUP finds among the characters are those with a class (R130). -/
theorem present_char (c : Elem) : (Key.char c).present = (rowClassAt c.toNat).isSome := by
  rw [← rowOf_map_cls, Option.isSome_map]; rfl

/-- The characters of R134. -/
theorem rowClassAt_isSome_iff (n : Nat) : (rowClassAt n).isSome = true ↔
    (0x41 ≤ n ∧ n ≤ 0x5A) ∨ (0x30 ≤ n ∧ n ≤ 0x39) ∨
      n ∈ [0x2D, 0x2B, 0x3F, 0x3A, 0x28, 0x29, 0x2E, 0x2C, 0x2F, 0x20, 0x0D, 0x0A] ∨
      (0x410 ≤ n ∧ n ≤ 0x42F) ∨ n = 0x401 := by
  unfold rowClassAt
  simp only [List.mem_cons, List.not_mem_nil, or_false]
  split_ifs <;>
    simp only [Option.isSome_some, Option.isSome_none, true_iff, Bool.false_eq_true, false_iff] <;> omega

theorem classOf_char_eq (p : Impl) (c : Elem) :
    classOf p (.char c) = (rowClassAt c.toNat).map (classOfRow p) := by
  rw [classOf_char, ← rowOf_map_cls, Option.map_map]; rfl

/-- The LOOKUP row: only the returned value changes (R131). -/
theorem exec_lookup (k : Key) (s : State) :
    exec (.lookup k) s = .next { s with ret := .code (if k.present then some (Config.impl.code k) else none) } := rfl

/-- The MODEOF row on a character: only the returned value changes (R133). -/
theorem exec_modeOf_char (c : Elem) (s : State) :
    exec (.modeOf (.char c)) s = .next { s with ret := .cls (classOf Config.impl (.char c)) } := rfl

/-- Settles O5: LOOKUP finds the characters that have a class, and those are the ones listed. -/
theorem lookupEveryKey : Obligations.LookupEveryKey := by
  refine ⟨fun m s => rfl, fun c s => ?_⟩
  rw [exec_lookup, present_char]
  simp only [rowClassAt_isSome_iff]

/-- Settles O6: the class of a character is that of its row, by the table of R133. -/
theorem modeOfEveryKey : Obligations.ModeOfEveryKey := by
  refine ⟨fun m s => rfl, fun c s => ?_⟩
  rw [exec_modeOf_char, classOf_char_eq, rowClassAt]
  simp only [apply_ite (Option.map (classOfRow Config.impl)), Option.map_some, Option.map_none, classOfRow]

/-! ## UPPER (R132) -/

/-- The characters UPPER moves: a to z, U+0430 to U+044F, U+0451 (R132). -/
def isLower (c : Elem) : Prop :=
  (0x61 ≤ c.toNat ∧ c.toNat ≤ 0x7A) ∨ (0x430 ≤ c.toNat ∧ c.toNat ≤ 0x44F) ∨ c.toNat = 0x451

/-- UPPER in numbers. -/
theorem upper_toNat (c : Elem) : (upper c).toNat =
    if 0x61 ≤ c.toNat ∧ c.toNat ≤ 0x7A then c.toNat - 0x20
    else if 0x430 ≤ c.toNat ∧ c.toNat ≤ 0x44F then c.toNat - 0x20
    else if c.toNat = 0x451 then 0x401 else c.toNat := by
  unfold upper
  split_ifs
  · bv_omega
  · bv_omega
  · rfl
  · rfl

theorem upper_eq_self {c : Elem} (h : ¬isLower c) : upper c = c := by
  unfold isLower at h
  rw [upper, if_neg (by omega), if_neg (by omega), if_neg (by omega)]

/-- UPPER answers no character that it moves. -/
theorem not_isLower_upper (c : Elem) : ¬isLower (upper c) := by
  unfold isLower
  rw [upper_toNat]
  split_ifs <;> omega

theorem upper_upper (c : Elem) : upper (upper c) = upper c := upper_eq_self (not_isLower_upper c)

theorem isScalar_iff (c : Elem) :
    isScalar c = true ↔ c.toNat < 0xD800 ∨ 0xE000 ≤ c.toNat ∧ c.toNat ≤ 0x10FFFF := by
  simp [isScalar]

/-- What UPPER moves, it moves below the surrogates (R62, R132). -/
theorem isScalar_upper {c : Elem} (h : isScalar c = true) : isScalar (upper c) = true := by
  rw [isScalar_iff] at h ⊢
  rw [upper_toNat]
  split_ifs <;> omega

/-- Settles O7: the four cases are the definition's; UPPER moves nothing it has answered, and what it answers in place
of another character lies below the surrogates. -/
theorem upperEveryChar : Obligations.UpperEveryChar := by
  refine ⟨fun c s => ?_, fun c => ⟨upper_upper c, isScalar_upper⟩⟩
  simp only [← BitVec.toNat_inj (y := 0x0451#21)]
  rfl

end Sys2Proof.Machine

namespace Sys2Proof.Machine

/-! ## ENCODE (R150 to R167, R302) -/

/-! ### What is appended for a text -/

/-- The class of a character decides its symbols and the mode after it (R157 to R159). -/
theorem symbolStep_of_classOf {p : Impl} {c : Elem} {cls : SymClass} (h : classOf p (.char (upper c)) = some cls)
    (m : Mode) : symbolStep p m c = (markerFor cls m ++ [.char (upper c)], modeFor cls m) := by
  rw [classOf_char, Option.map_eq_some_iff] at h
  obtain ⟨r, hr, rfl⟩ := h
  exact symbolStep_found p m hr

/-- An unsupported element gives no symbol and keeps the mode (R156). -/
theorem symbolStep_unsupported {c : Elem} (h : supported c = false) (p : Impl) (m : Mode) :
    symbolStep p m c = ([], m) :=
  symbolStep_missing p m (by simpa [supported] using h)

@[simp] theorem markerFor_neutral (m : Mode) : markerFor .neutral m = [] := rfl
@[simp] theorem markerFor_same (m : Mode) : markerFor (.mode m) m = [] := if_pos rfl
@[simp] theorem markerFor_other {n m : Mode} (h : n ≠ m) : markerFor (.mode n) m = [.marker n] := if_neg h
@[simp] theorem modeFor_neutral (m : Mode) : modeFor .neutral m = m := rfl
@[simp] theorem modeFor_mode (n m : Mode) : modeFor (.mode n) m = n := rfl

/-- The mode test puts a marker in exactly when it changes the mode (R158, R159). -/
theorem markerFor_length (cls : SymClass) (m : Mode) :
    (markerFor cls m).length = if modeFor cls m = m then 0 else 1 := by
  cases cls with
  | neutral => simp
  | mode n => by_cases h : n = m <;> simp [h]

/-- An element gives its own symbol if it is supported, and a marker if the mode changes (R160). -/
theorem symbolStep_length (p : Impl) (m : Mode) (c : Elem) :
    (symbolStep p m c).1.length =
      (if supported c then 1 else 0) + if (symbolStep p m c).2 = m then 0 else 1 := by
  cases h : rowOf (upper c) with
  | none => simp [symbolStep_missing p m h, supported, h]
  | some r => simp [symbolStep_found p m h, supported, h, markerFor_length, Nat.add_comm]

/-- The character loop puts in `S + W` symbols (R166). -/
theorem bodySymbols_length (p : Impl) (m : Mode) (text : List Elem) :
    (bodySymbols p m text).length = text.countP supported + switches p m text := by
  induction text generalizing m with
  | nil => rfl
  | cons c cs ih =>
    simp only [bodySymbols, switches, List.length_append, symbolStep_length, ih, List.countP_cons]
    omega

/-- ENCODE puts in `5 + S + W` symbols (R166). -/
theorem textSymbols_length (p : Impl) (text : List Elem) :
    (textSymbols p text).length = 5 + text.countP supported + switches p .lat text := by
  simp only [textSymbols, startSymbols, closeSymbols, List.length_append, List.length_cons, List.length_nil,
    bodySymbols_length]
  omega

/-- A marker is put in only before a supported element (R156, R158). -/
theorem switches_le_countP (p : Impl) (m : Mode) (text : List Elem) : switches p m text ≤ text.countP supported := by
  induction text generalizing m with
  | nil => simp [switches]
  | cons c cs ih =>
    have htail := ih (symbolStep p m c).2
    cases h : supported c with
    | true => simp only [switches, List.countP_cons, h, if_true]; split_ifs <;> omega
    | false => simpa [switches, List.countP_cons, h, symbolStep_unsupported h] using htail

/-- Between the frames of `LAT,CR,LF` and those of `CR,LF` stand the frames of the character loop (R154, R161). -/
theorem unitsOf_textSymbols (p : Impl) (text : List Elem) :
    unitsOf p (textSymbols p text) =
      frame (p.code (.marker .lat)) ++ frame (p.code crKey) ++ frame (p.code lfKey) ++
        List.flatMap frame ((bodySymbols p .lat text).map p.code) ++ frame (p.code crKey) ++ frame (p.code lfKey) := by
  simp [textSymbols, startSymbols, closeSymbols, unitsOf, List.flatMap_map]

/-- Without its unsupported elements a text gives the same symbols and ends in the same mode (R156). -/
theorem body_filter_supported (p : Impl) (m : Mode) (text : List Elem) :
    bodySymbols p m (text.filter supported) = bodySymbols p m text ∧
      bodyMode p m (text.filter supported) = bodyMode p m text := by
  induction text generalizing m with
  | nil => exact ⟨rfl, rfl⟩
  | cons c cs ih =>
    obtain ⟨hsymbols, hmode⟩ := ih (symbolStep p m c).2
    cases h : supported c with
    | true => simp [bodySymbols, bodyMode, h, hsymbols, hmode]
    | false =>
      rw [symbolStep_unsupported h] at hsymbols hmode
      simp [bodySymbols, bodyMode, h, symbolStep_unsupported h, hsymbols, hmode]

theorem textSymbols_filter_supported (p : Impl) (text : List Elem) :
    textSymbols p (text.filter supported) = textSymbols p text := by
  simp only [textSymbols, (body_filter_supported p .lat text).1]

/-! ### The events of a text -/

/-- Of the events of ENCODE, those a test picks that rejects the two at the start and the summary are those it picks of
the elements' (R162). -/
theorem filter_textEvents (p : Impl) (v : Bool) (text : List Elem) {q : Event → Bool}
    (htext : q (eventOf .text (.text text)) = false) (hbegin : q (eventOf .encBegin .none) = false)
    (hsummary : ∀ n, q (eventOf .encSummary (.count n)) = false) :
    (textEvents p v text).filter q = text.flatMap fun c => (elemEvents p v c).filter q := by
  simp [textEvents, htext, hbegin, hsummary, List.filter_flatMap]

/-- The verbose flag adds the `EV_CHAR` event of an element (R163). -/
theorem elemEvents_filter_not_char (p : Impl) (c : Elem) :
    (elemEvents p true c).filter (fun e => e.kind ≠ .char) = elemEvents p false c := by
  cases h : supported c <;> simp [elemEvents, eventOf, h]

theorem textEvents_filter_not_char (p : Impl) (text : List Elem) :
    (textEvents p true text).filter (fun e => e.kind ≠ .char) = textEvents p false text := by
  rw [textEvents, List.filter_append, List.filter_append, List.filter_flatMap]
  simp only [elemEvents_filter_not_char]
  rfl

/-- With the flag an element gives one `EV_CHAR` event if it is supported, none if it is not (R156, R163). -/
theorem elemEvents_count_char (p : Impl) (c : Elem) :
    ((elemEvents p true c).filter fun e => e.kind = .char).length = if supported c then 1 else 0 := by
  cases h : supported c <;> simp [elemEvents, eventOf, h]

/-- An element gives one warning if it is not supported, none if it is (R156, R302). -/
theorem elemEvents_filter_unsupported (p : Impl) (v : Bool) (c : Elem) :
    ((elemEvents p v c).filter fun e => e.kind = .unsupported) =
      if supported c then [] else [eventOf .unsupported (.char (upper c))] := by
  cases h : supported c <;> cases v <;> simp [elemEvents, eventOf, h]

/-- With the flag there is one `EV_CHAR` event for each supported element (R163). -/
theorem textEvents_count_char (p : Impl) (text : List Elem) :
    ((textEvents p true text).filter fun e => e.kind = .char).length = text.countP supported := by
  rw [filter_textEvents p true text rfl rfl fun _ => rfl]
  induction text with
  | nil => rfl
  | cons c cs ih =>
    rw [List.flatMap_cons, List.length_append, ih, elemEvents_count_char, List.countP_cons, Nat.add_comm]

/-- Each unsupported element gives one warning, in text order (R156, R302). -/
theorem textEvents_filter_unsupported (p : Impl) (v : Bool) (text : List Elem) :
    ((textEvents p v text).filter fun e => e.kind = .unsupported) =
      (text.filter fun c => !supported c).map fun c => eventOf .unsupported (.char (upper c)) := by
  rw [filter_textEvents p v text rfl rfl fun _ => rfl]
  induction text with
  | nil => rfl
  | cons c cs ih =>
    rw [List.flatMap_cons, ih, elemEvents_filter_unsupported]
    cases h : supported c <;> simp [h]

/-! ### The row -/

theorem exec_encode_idle {s : State} (hp : s.phase = .idle) (text : List Elem) (v : Bool) :
    exec (.encode text v) s = .next (encodeText Config.impl text v s) := if_neg (not_not.2 hp)

theorem exec_encode_busy {s : State} (hp : s.phase ≠ .idle) (text : List Elem) (v : Bool) :
    exec (.encode text v) s = .refused .callWhileBusy := if_pos hp

/-- Settles O15: `encodeText_eq`, the induction over the text being that of the character loop. -/
theorem encodeMeaning : Obligations.EncodeMeaning := by
  refine fun text v s => ⟨fun hp => ?_, fun hp => exec_encode_busy hp text v⟩
  rw [exec_encode_idle hp, encodeText_eq]
  simp only [not_supported]

/-- Settles O17: `5 + S + W` symbols of eight units, and a marker only before a supported element. -/
theorem unitCount : Obligations.UnitCount := by
  intro text v s hp
  refine ⟨_, exec_encode_idle hp text v, ?_⟩
  have hlen := textSymbols_length Config.impl text
  have hswitches := switches_le_countP Config.impl .lat text
  have hsupported : text.countP supported ≤ text.length := List.countP_le_length
  simp only [encodeText_eq, List.length_append, unitsOf_length, true_and]
  omega

/-- Settles O18: the frames between are those of the character loop. (`beginsAndEnds` is the model's check of
one text.) -/
theorem encodeBeginsAndEnds : Obligations.BeginsAndEnds := fun text v s hp =>
  ⟨_, (bodySymbols Config.impl .lat text).map Config.impl.code, exec_encode_idle hp text v, by
    rw [encodeText_eq, unitsOf_textSymbols]; rfl⟩

/-- Settles O20: only the events of an element look at the flag. -/
theorem verboseOnlyAddsEvents : Obligations.VerboseOnlyAddsEvents := fun text s hp =>
  ⟨_, _, textEvents Config.impl true text, textEvents Config.impl false text, exec_encode_idle hp text true,
    exec_encode_idle hp text false, by simp only [encodeText_eq], by rw [encodeText_eq], by rw [encodeText_eq],
    (textEvents_filter_not_char Config.impl text).symm, textEvents_count_char Config.impl text⟩

/-- Settles O21: an unsupported element gives no symbol, keeps the mode, and gives one warning. -/
theorem unsupportedSkipped : Obligations.UnsupportedSkipped := fun text v s hp =>
  ⟨_, _, textEvents Config.impl v text, exec_encode_idle hp text v, exec_encode_idle hp (text.filter supported) v,
    by simp only [encodeText_eq, textSymbols_filter_supported],
    by simp only [encodeText_eq, body_filter_supported],
    by simp only [encodeText_eq, textSymbols_filter_supported],
    by rw [encodeText_eq], textEvents_filter_unsupported Config.impl v text⟩

/-! ## The symbols (R152, R154, R157 to R161, R172) -/

/-- CR and LF inside the text have the class `MODE_CTRL` (R172). -/
theorem exec_control {i : Instr} {c : Elem} (h : (i, c) ∈ [(Instr.cr, 0x000D#21), (.lf, 0x000A#21)]) (s : State) :
    exec i s = .next (encodeSymbol Config.impl c Config.impl.modeCtrl s.cfg.verbose s) := by
  simp only [List.mem_cons, Prod.mk.injEq, List.not_mem_nil, or_false] at h
  obtain ⟨rfl, rfl⟩ | ⟨rfl, rfl⟩ := h <;> rfl

/-- Settles O8: the mode test finds the class of the row in `MODE` and puts no marker in. -/
theorem sameModeSymbol : Obligations.SameModeSymbol := by
  intro r hr s hcls
  rw [exec_symRow hr, hcls, encodeSymbol_eq]
  simp [eventOf, EvKind.tag]

/-- Settles O9: the mode test finds another mode and puts its marker in. -/
theorem modeSwitchSymbol : Obligations.ModeSwitchSymbol := by
  intro r hr m s hcls hm
  rw [exec_symRow hr, hcls, encodeSymbol_eq]
  simp [eventOf, EvKind.tag, hm]

/-- Settles O10: the space is neutral. -/
theorem spaceIsNeutral : Obligations.SpaceIsNeutral := by
  intro s
  have hrow : exec .sp s = .next (encodeSymbol Config.impl 0x0020#21 .neutral s.cfg.verbose s) := rfl
  rw [hrow, encodeSymbol_eq]
  simp [eventOf, EvKind.tag]

/-- Settles O11: by `MODE_CTRL`, and if it is a mode, by whether it is the current one. -/
theorem controlSymbols : Obligations.ControlSymbols := by
  intro i c hi s
  rw [exec_control hi, encodeSymbol_eq]
  cases Config.impl.modeCtrl with
  | neutral => simp [eventOf, EvKind.tag]
  | mode m => by_cases hm : m = s.mode <;> simp [eventOf, EvKind.tag, hm]

/-- Settles O13: EMIT asks LOOKUP first. (`emitKey` is the model's EMIT.) -/
theorem emitKeyMeaning : Obligations.EmitKey := fun _ _ => ⟨fun h => if_pos h, fun h => if_neg (by simp [h])⟩

/-- Settles O14: EMIT three times, respectively twice. -/
theorem fixedSequences : Obligations.FixedSequences := fun _ => ⟨rfl, rfl⟩

/-! ## The mode table (R160, R167 c) -/

/-- Settles O16: each line of the table is a class of `markerFor` and `modeFor`. -/
theorem modeTable : Obligations.ModeTable := by
  refine fun p m c => ⟨symbolStep_missing p m, fun r hr => ?_⟩
  rw [symbolStep_found p m hr]
  refine ⟨fun hc => ?_, fun hc => ?_, fun n hc hn => ?_, fun hc hp => ?_, fun hc hp => ?_, fun n hc hp hn => ?_⟩
  · simp [hc, classOfRow]
  · simp [hc, classOfRow]
  · simp [hc, classOfRow, hn]
  · simp [hc, hp, classOfRow]
  · simp [hc, hp, classOfRow]
  · simp [hc, hp, classOfRow, hn]

/-- Settles O19: the marker of a class that is a mode is the one the statement has. -/
theorem switchMinimality : Obligations.SwitchMinimality := by
  intro p m c cs n h
  rw [bodySymbols, symbolStep_of_classOf h]
  rfl

end Sys2Proof.Machine

namespace Sys2Proof.Machine

/-! ## `ROUND` (R196) -/

/-- A natural and a rest less than 1 are the integer part and the fractional part of their sum. -/
theorem floor_natCast_add (n : Nat) {r : Rat} (h0 : 0 ≤ r) (h1 : r < 1) :
    ((n : Rat) + r).floor.toNat = n ∧ frac (n + r) = r := by
  have hfloor : ((n : Rat) + r).floor = n := by
    rw [floor_eq, Int.floor_natCast_add, Int.floor_eq_zero_iff.2 ⟨h0, h1⟩, add_zero]
  exact ⟨by rw [hfloor, Int.toNat_natCast], by rw [frac, hfloor]; push_cast; ring⟩

theorem roundTie_add_of_lt_half (tie : Tie) (n : Nat) {r : Rat} (h0 : 0 ≤ r) (h : r < 1 / 2) :
    roundTie tie (n + r) = n := by
  obtain ⟨hfloor, hfrac⟩ := floor_natCast_add n h0 (by linarith)
  unfold roundTie
  rw [hfloor, hfrac, if_pos h]

theorem roundTie_add_of_half_lt (tie : Tie) (n : Nat) {r : Rat} (h : 1 / 2 < r) (h1 : r < 1) :
    roundTie tie (n + r) = n + 1 := by
  obtain ⟨hfloor, hfrac⟩ := floor_natCast_add n (by linarith) h1
  unfold roundTie
  rw [hfloor, hfrac, if_neg h.not_gt, if_pos h]

/-- At an exact tie the rule decides (R196). -/
theorem roundTie_add_half (tie : Tie) (n : Nat) :
    (tie = .up → roundTie tie (n + 1 / 2) = n + 1) ∧
      (tie = .even → roundTie tie (n + 1 / 2) = if n % 2 = 0 then n else n + 1) := by
  obtain ⟨hfloor, hfrac⟩ := floor_natCast_add n (r := 1 / 2) (by norm_num) (by norm_num)
  unfold roundTie
  rw [hfloor, hfrac, if_neg (lt_irrefl _), if_neg (lt_irrefl _)]
  exact ⟨by rintro rfl; rfl, by rintro rfl; rfl⟩

/-- At an exact tie `ROUND` is one of the two neighbours. -/
theorem roundTie_add_half_neighbour (tie : Tie) (n : Nat) :
    roundTie tie (n + 1 / 2) = n ∨ roundTie tie (n + 1 / 2) = n + 1 := by
  obtain ⟨hup, heven⟩ := roundTie_add_half tie n
  cases tie with
  | up => exact .inr (hup rfl)
  | even => rw [heven rfl]; exact ite_eq_or_eq _ _ _

theorem roundTie_near (tie : Tie) {q : Rat} (hq : 0 ≤ q) : |q - (roundTie tie q : Rat)| ≤ 1 / 2 := by
  obtain ⟨n, r, h0, h1, rfl⟩ : ∃ (n : Nat) (r : Rat), 0 ≤ r ∧ r < 1 ∧ q = n + r :=
    ⟨⌊q⌋₊, q - ⌊q⌋₊, by linarith [Nat.floor_le hq], by linarith [Nat.lt_floor_add_one q], by ring⟩
  rw [abs_le]
  rcases lt_trichotomy r (1 / 2) with h | rfl | h
  · rw [roundTie_add_of_lt_half tie n h0 h]; constructor <;> linarith
  · rcases roundTie_add_half_neighbour tie n with e | e <;> rw [e] <;> push_cast <;> constructor <;> linarith
  · rw [roundTie_add_of_half_lt tie n h h1]; push_cast; constructor <;> linarith

/-- Where there is one nearest natural, it is the answer: it lies below `q` or one above the natural below `q`. -/
theorem roundTie_eq_of_near (tie : Tie) {q : Rat} (hq : 0 ≤ q) {n : Nat} (h : |q - (n : Rat)| < 1 / 2) :
    roundTie tie q = n := by
  obtain ⟨hlo, hhi⟩ := abs_lt.1 h
  rcases le_or_gt (n : Rat) q with hn | hn
  · have := roundTie_add_of_lt_half tie n (r := q - n) (by linarith) (by linarith)
    rwa [add_sub_cancel] at this
  · obtain ⟨m, rfl⟩ : ∃ m, n = m + 1 :=
      Nat.exists_eq_succ_of_ne_zero fun h0 => by subst h0; push_cast at hn; linarith
    push_cast at hlo hn
    have := roundTie_add_of_half_lt tie m (r := q - m) (by linarith) (by linarith)
    rwa [add_sub_cancel] at this

theorem roundTie_natCast (tie : Tie) (n : Nat) : roundTie tie n = n :=
  roundTie_eq_of_near tie n.cast_nonneg (by simp)

/-- Settles O35: the number is a natural and a rest, and the rest is compared with one half. -/
theorem roundNearest : Obligations.RoundNearest := fun tie _ hq =>
  ⟨roundTie_near tie hq, fun _ => roundTie_eq_of_near tie hq, fun n h => h ▸ roundTie_add_half tie n⟩

/-! ## One segment and the rows that run one (R197, R198, R207 to R209) -/

theorem sampleCount_eq (p : Impl) (d : Rat) : sampleCount p d = roundTie p.tie (44100 * d) := rfl

/-- The preamble and the postamble have 13230 samples whatever the tie rule (R197). -/
theorem sampleCount_preDuration (p : Impl) : sampleCount p Config.preDuration = 13230 := by
  rw [sampleCount_eq, show (44100 * Config.preDuration : Rat) = (13230 : Nat) by norm_num [Config.preDuration],
    roundTie_natCast]

/-- SEG on operands of its domain, written out with its sample count `n` and its phase advance `a` (R198, R200,
R201). -/
theorem seg_written {p : Impl} {f : BitVec 16} {d a : Rat} {n : Nat} (hf : f ≠ 0) (hd : 0 < d)
    (hn : roundTie p.tie (44100 * d) = n) (ha : f.toNat * d = a) (s : State) :
    seg p f d s = .next { s with
      pcm := s.pcm ++ segmentSamples p s.theta f n s.syn.v
      theta := frac (s.theta + a)
      syn := { s.syn with
        segF := f
        segN := n
        segI := if n = 0 then s.syn.segI else n - 1
        sampleCnt := s.syn.sampleCnt + n } } := by
  subst hn ha
  exact seg_next p hf hd s

theorem seg_zeroFrequency (p : Impl) (d : Rat) (s : State) : seg p 0 d s = .fault .zeroFrequency := rfl

theorem seg_nonPositiveDuration (p : Impl) {f : BitVec 16} {d : Rat} (hf : f ≠ 0) (hd : d ≤ 0) (s : State) :
    seg p f d s = .fault .nonPositiveDuration := by
  rw [seg, if_neg hf, if_pos hd]

theorem fullUnit_nonpos {c : SynParams} (h : baudOf c ≤ 0) : fullUnit c ≤ 0 :=
  div_nonpos_of_nonneg_of_nonpos (by norm_num) (by exact_mod_cast h)

theorem halfUnit_nonpos {c : SynParams} (h : baudOf c ≤ 0) : halfUnit c ≤ 0 :=
  div_nonpos_of_nonneg_of_nonpos (by norm_num) (by exact_mod_cast h)

theorem exec_u0 (s : State) : exec .u0 s = seg Config.impl s.cfg.params.spaceHz (fullUnit s.cfg.params) s := rfl

theorem exec_u1 (s : State) : exec .u1 s = seg Config.impl s.cfg.params.markHz (fullUnit s.cfg.params) s := rfl

theorem exec_uh (s : State) : exec .uh s = seg Config.impl s.cfg.params.markHz (halfUnit s.cfg.params) s := rfl

/-- The two inserted tones are one row (R197, R203). -/
theorem exec_pre_or_post {i : Instr} (hi : i ∈ [.pre, .post]) (s : State) :
    exec i s = seg Config.impl s.cfg.params.markHz Config.preDuration s := by
  simp only [List.mem_cons, List.not_mem_nil, or_false] at hi
  obtain rfl | rfl := hi <;> rfl

/-- The rows of the mark tone (R197, R203, R208, R209). -/
theorem exec_mark {i : Instr} (hi : i ∈ [Instr.pre, .post, .u1, .uh]) (s : State) :
    ∃ d, exec i s = seg Config.impl s.cfg.params.markHz d s := by
  simp only [List.mem_cons, List.not_mem_nil, or_false] at hi
  obtain rfl | rfl | rfl | rfl := hi <;> exact ⟨_, rfl⟩

/-- Settles O32: each row is SEG of the unit's tone, for 100 or 50 over the baud rate. -/
theorem unitSegmentsMeaning : Obligations.UnitSegments := by
  rintro s b n1 nh hb hb' rfl rfl
  have hfull : fullUnit s.cfg.params = 100 / b := by rw [fullUnit, hb']
  have hhalf : halfUnit s.cfg.params = 50 / b := by rw [halfUnit, hb']
  have hn1 : 44100 * fullUnit s.cfg.params = 4410000 / b := by rw [hfull]; ring
  have hnh : 44100 * halfUnit s.cfg.params = 2205000 / b := by rw [hhalf]; ring
  refine ⟨fun hf => ?_, fun hf => ?_, fun hf => ?_⟩
  · rw [exec_u0]
    exact seg_written hf (fullUnit_pos hb) (congrArg _ hn1) (by rw [hfull]; ring) s
  · rw [exec_u1]
    exact seg_written hf (fullUnit_pos hb) (congrArg _ hn1) (by rw [hfull]; ring) s
  · rw [exec_uh]
    exact seg_written hf (halfUnit_pos hb) (congrArg _ hnh) (by rw [hhalf]; ring) s

/-- Settles O33: both rows are SEG of the mark tone for 3/10 s. -/
theorem preAndPost : Obligations.PreAndPost := by
  intro i s hi hf
  rw [exec_pre_or_post hi]
  exact seg_written hf preDuration_pos (sampleCount_preDuration _) (by rw [Config.preDuration]; ring) s

/-- Settles O34: SEG on its domain and off it, and the rows that run it. -/
theorem segmentMeaning : Obligations.SegmentMeaning := by
  constructor
  · refine fun f d s => ⟨fun hf hd => seg_written hf hd rfl rfl s, ?_, fun hf hd => seg_nonPositiveDuration _ hf hd s⟩
    rintro rfl
    exact seg_zeroFrequency Config.impl d s
  · refine fun s => ⟨fun hf i hi => ?_, fun hf => ?_, fun hf hb i hi => ?_, fun hf hb => ?_⟩
    · obtain ⟨d, hd⟩ := exec_mark hi s
      rw [hd, hf, seg_zeroFrequency]
    · rw [exec_u0, hf, seg_zeroFrequency]
    · simp only [List.mem_cons, List.not_mem_nil, or_false] at hi
      obtain rfl | rfl := hi
      · rw [exec_u1, seg_nonPositiveDuration _ hf (fullUnit_nonpos hb)]
      · rw [exec_uh, seg_nonPositiveDuration _ hf (halfUnit_nonpos hb)]
    · rw [exec_u0, seg_nonPositiveDuration _ hf (fullUnit_nonpos hb)]

/-! ## Lists of segments (R200 to R202) -/

/-- The phase after segments is the phase before them and every `f × d`, modulo one turn (R201). -/
theorem phaseAfter_frac (θ : Rat) (gs : List Segment) :
    phaseAfter (frac θ) gs = frac (θ + (gs.map fun h => (h.1.toNat : Rat) * h.2).sum) := by
  induction gs generalizing θ with
  | nil => simp
  | cons g gs ih => rw [phaseAfter_cons, frac_frac_add, ih, List.map_cons, List.sum_cons, add_assoc]

theorem phaseAfter_zero (gs : List Segment) :
    phaseAfter 0 gs = frac ((gs.map fun h => (h.1.toNat : Rat) * h.2).sum) := by
  simpa [frac_of_turn] using phaseAfter_frac 0 gs

/-- The samples of one segment stand after those of the segments before it. -/
theorem samplesOf_getElem? (p : Impl) (v θ : Rat) (gs : List Segment) (g : Segment) (hs : List Segment) {j : Nat}
    (hj : j < sampleCount p g.2) :
    (samplesOf p v θ (gs ++ g :: hs))[(gs.map fun h => sampleCount p h.2).sum + j]? =
      some (amp p (frac (phaseAfter θ gs + g.1.toNat * j / 44100)) v) := by
  have hfirst : j < (segmentSamples p (phaseAfter θ gs) g.1 (sampleCount p g.2) v).length := by simpa using hj
  rw [samplesOf_append, ← samplesOf_length p v θ gs, List.getElem?_append_right (Nat.le_add_right ..),
    Nat.add_sub_cancel_left, samplesOf, List.getElem?_append_left hfirst, segmentSamples_getElem? p _ _ _ _ hj]
  rfl

/-- Settles O42: the phase before the segment, by the nominal durations, and the segment's own samples. -/
theorem phaseContinuity : Obligations.PhaseContinuity :=
  ⟨fun p v gs g hs j hj => by rw [samplesOf_getElem? p v 0 gs g hs hj, phaseAfter_zero, frac_frac_add],
    phaseAfter_zero⟩

/-! ## SYNTHESIZE (R190 to R194, R204, R205) -/

theorem volumeFraction_eq (c : SynParams) :
    volumeFraction c = if volumeOf c < 0 then 0 else if 100 < volumeOf c then 1 else (volumeOf c : Rat) / 100 := by
  have hlo : (volumeOf c : Rat) / 100 < 0 ↔ volumeOf c < 0 := by rw [div_lt_iff₀ (by norm_num)]; norm_num
  have hhi : 1 < (volumeOf c : Rat) / 100 ↔ 100 < volumeOf c := by rw [lt_div_iff₀ (by norm_num)]; norm_cast
  simp only [volumeFraction, clamp, hlo, hhi]

/-- Settles O38: `synthesizeUnits_ok` with the volume test written out. -/
theorem synthesizeMeaning : Obligations.SynthesizeMeaning := by
  refine fun units c s => ⟨fun hp hb hm hsp hu v hv => ?_, fun hp => if_pos hp⟩
  rw [exec_synthesize_idle hp, synthesizeUnits_ok _ (fatalConfig_eq_none.2 ⟨hb, hm, hsp⟩) units hu s, hv,
    volumeFraction_eq, volumeOutside_eq]
  simp only [decide_eq_true_eq]
  rfl

/-- A fatal condition, taken while no session runs: one warning and `INVALID_CONFIG` (R192, R193, R308). -/
theorem exec_synthesize_fatal {s : State} (hp : s.phase = .idle) {c : SynParams} {e : ErrorKind}
    (h : fatalConfig c = some e) (units : List UnitCode) :
    exec (.synthesize units c) s = .next { s with
      evt := s.evt ++ [⟨.invalidConfig, .warn, errorPayload e⟩]
      result := .invalidConfig } := by
  rw [exec_synthesize_idle hp, synthesizeUnits_fatal _ h, raise_fatalConfig_eq h, ← hp]

/-- Settles O39: the first fatal condition in the order baud, mark, space. -/
theorem synthesizeFatal : Obligations.SynthesizeFatal := by
  refine fun units c s hp => ⟨fun hb => ?_, fun hb hm => ?_, fun hb hm hsp => ?_⟩
  · exact exec_synthesize_fatal hp (if_pos hb) units
  · exact exec_synthesize_fatal (e := .invalidMark) hp (by rw [fatalConfig, if_neg (not_le.2 hb), if_pos hm]) units
  · exact exec_synthesize_fatal (e := .invalidSpace) hp
      (by rw [fatalConfig, if_neg (not_le.2 hb), if_neg hm, if_pos hsp]) units

/-- The half unit is half of the full one (R195). -/
theorem unitDuration_eq (c : SynParams) (u : UnitCode) :
    unitDuration c u = 100 / (baudOf c : Rat) * (if u = 0b10#2 then 1 / 2 else 1) := by
  unfold unitDuration halfUnit fullUnit
  split <;> ring

/-- The samples of a whole synthesis: the preamble, each unit's own rounded count, the postamble (R205). -/
theorem samplesOf_segmentList_length (p : Impl) (v θ : Rat) (c : SynParams) (units : List UnitCode) :
    (samplesOf p v θ (segmentList c units)).length =
      2 * sampleCount p Config.preDuration + (units.map fun u => sampleCount p (unitDuration c u)).sum := by
  rw [samplesOf_length]
  simp [segmentList, unitList, Function.comp_def]
  ring

/-- Settles O41: the samples of `synthesizeUnits_ok`, counted. -/
theorem synthesizeSampleCount : Obligations.SampleCount := by
  intro units c s hp hb hm hsp hu
  have hpre := sampleCount_preDuration Config.impl
  refine ⟨_, (exec_synthesize_idle hp units c).trans
    (synthesizeUnits_ok _ (fatalConfig_eq_none.2 ⟨hb, hm, hsp⟩) units hu s), ?_, congrArg (2 * ·) hpre,
    List.length_append⟩
  simp only [samplesOf_segmentList_length, sampleCount_eq, unitDuration_eq, Config.preDuration, mul_assoc]

/-! ## The sample (R199, R210, R211, R213) -/

/-- Settles O37: `ampInt_eq` with `quantReal_near`, `quantReal_int`, `quantReal_mono`; and `quantReal_surjective`. -/
theorem ampNearTheSine : Obligations.AmpNearTheSine := by
  refine ⟨fun p => ⟨quantReal p, ⟨quantReal_near p, quantReal_int p, quantReal_mono p⟩, fun θ v _ _ _ _ => ?_⟩,
    fun quant near int mono => ?_⟩
  · rw [ampInt_eq]
    exact ⟨rfl, quantReal_near p _⟩
  · obtain ⟨t, ht⟩ := quantReal_surjective default near int mono
    exact ⟨_, fun θ v _ _ _ _ => by rw [ampInt_eq, ampReal, ht]⟩

/-- On the first half turn the sine is not negative. -/
theorem ampInt_nonneg (p : Impl) {θ v : Rat} (hv : 0 ≤ v) (h0 : 0 ≤ θ) (h : θ ≤ 1 / 2) : 0 ≤ ampInt p θ v := by
  have hv : (0 : ℝ) ≤ v := by exact_mod_cast hv
  have h0 : (0 : ℝ) ≤ θ := by exact_mod_cast h0
  have h : (θ : ℝ) ≤ (1 / 2 : Rat) := by exact_mod_cast h
  push_cast at h
  have hsin : 0 ≤ Real.sin (2 * Real.pi * θ) :=
    Real.sin_nonneg_of_nonneg_of_le_pi (by positivity) (by nlinarith [Real.pi_pos])
  rw [ampInt_eq]
  exact le_quantReal p (by push_cast; positivity)

/-- On the second half turn the sine is not positive. -/
theorem ampInt_nonpos (p : Impl) {θ v : Rat} (hv : 0 ≤ v) (h : 1 / 2 ≤ θ) (h1 : θ ≤ 1) : ampInt p θ v ≤ 0 := by
  have hv : (0 : ℝ) ≤ v := by exact_mod_cast hv
  have h : ((1 / 2 : Rat) : ℝ) ≤ θ := by exact_mod_cast h
  push_cast at h
  have h1 : (θ : ℝ) ≤ 1 := by exact_mod_cast h1
  have hsin : Real.sin (2 * Real.pi * θ) ≤ 0 := by
    rw [← Real.sin_sub_two_pi]
    exact Real.sin_nonpos_of_nonpos_of_neg_pi_le (by nlinarith [Real.pi_pos]) (by nlinarith [Real.pi_pos])
  rw [ampInt_eq]
  refine quantReal_le p ?_
  push_cast
  exact mul_nonpos_of_nonpos_of_nonneg (mul_nonpos_of_nonpos_of_nonneg hsin hv) (by norm_num)

/-- Where the sine is the rational number `a`, the sample is within one of `a` times the peak (R210). -/
theorem ampInt_near_of_sin_eq (p : Impl) {θ v a b : Rat} (h : Real.sin (2 * Real.pi * θ) = a)
    (hb : a * v * (32767 / 2) = b) : |(ampInt p θ v : Rat) - b| < 1 := by
  have hnear := quantReal_near p (a * v * (32767 / 2))
  rw [ampInt_eq, ampReal, h, ← hb, ← Rat.cast_lt (K := ℝ)]
  push_cast
  exact hnear

/-- A sample of silence, or at a phase where the sine is zero, is zero (R214). -/
theorem ampInt_eq_zero (p : Impl) {θ v : Rat} (h : Real.sin (2 * Real.pi * θ) = 0 ∨ v = 0) : ampInt p θ v = 0 := by
  have hzero : Real.sin (2 * Real.pi * θ) * v * (32767 / 2) = 0 := by
    obtain h | rfl := h
    · rw [h]; ring
    · simp
  rw [ampInt_eq, ampReal, hzero]
  exact_mod_cast quantReal_int p 0

theorem sin_half_turn : Real.sin (2 * Real.pi * (1 / 2 : Rat)) = 0 := by
  rw [show 2 * Real.pi * ((1 / 2 : Rat) : ℝ) = Real.pi by push_cast; ring, Real.sin_pi]

theorem sin_quarter_turn : Real.sin (2 * Real.pi * (1 / 4 : Rat)) = (1 : Rat) := by
  rw [show 2 * Real.pi * ((1 / 4 : Rat) : ℝ) = Real.pi / 2 by push_cast; ring, Real.sin_pi_div_two, Rat.cast_one]

theorem sin_twelfth_turn : Real.sin (2 * Real.pi * (1 / 12 : Rat)) = (1 / 2 : Rat) := by
  rw [show 2 * Real.pi * ((1 / 12 : Rat) : ℝ) = Real.pi / 6 by push_cast; ring, Real.sin_pi_div_six]; push_cast; rfl

/-- The sine is the same as far before the half turn as after 0. -/
theorem sin_half_turn_sub {θ φ a : Rat} (h : Real.sin (2 * Real.pi * θ) = a) (hφ : φ = 1 / 2 - θ) :
    Real.sin (2 * Real.pi * φ) = a := by
  rw [← h, ← Real.sin_pi_sub, hφ]; congr 1; push_cast; ring

/-- Half a turn later the sine has the other sign. -/
theorem sin_add_half_turn {θ φ a : Rat} (h : Real.sin (2 * Real.pi * θ) = a) (hφ : φ = θ + 1 / 2) :
    Real.sin (2 * Real.pi * φ) = (-a : Rat) := by
  rw [Rat.cast_neg, ← h, ← Real.sin_add_pi, hφ]; congr 1; push_cast; ring

/-- AMP on its domain returns the word of `ampInt` (R199). -/
theorem exec_amp {θ v : Rat} (h0 : 0 ≤ θ) (h1 : θ < 1) (hv0 : 0 ≤ v) (hv1 : v ≤ 1) (s : State) :
    exec (.amp θ v) s = .next { s with ret := .sample (amp Config.impl θ v) } := if_pos ⟨h0, h1, hv0, hv1⟩

/-- Settles O36: the integer of the sample is `ampInt`, and its exact points are those of the sine. -/
theorem ampValues : Obligations.AmpValues := by
  refine ⟨fun θ v s h => if_neg h, fun θ v s h0 h1 hv0 hv1 => ⟨_, exec_amp h0 h1 hv0 hv1 s, ?_⟩⟩
  obtain ⟨hlo, hhi⟩ := ampInt_range Config.impl θ hv0 hv1
  have hfiveTwelfths : Real.sin (2 * Real.pi * (5 / 12 : Rat)) = (1 / 2 : Rat) :=
    sin_half_turn_sub sin_twelfth_turn (by norm_num)
  rw [amp_toInt Config.impl θ hv0 hv1]
  refine ⟨rfl, hlo, hhi, fun h => ?_, ampInt_nonneg _ hv0 h0, fun h => ampInt_nonpos _ hv0 h h1.le,
    ?_, ?_, ?_, ?_⟩
  · have hzero : ampInt Config.impl θ v = 0 := by
      refine ampInt_eq_zero _ ?_
      obtain rfl | rfl | hv := h
      · exact .inl (by simp)
      · exact .inl sin_half_turn
      · exact .inr hv
    rw [amp, hzero]; rfl
  · rintro rfl
    exact ampInt_near_of_sin_eq _ sin_quarter_turn (by ring)
  · rintro rfl
    rw [← sub_neg_eq_add]
    exact ampInt_near_of_sin_eq _ (sin_add_half_turn sin_quarter_turn (by norm_num)) (by ring)
  · rintro (rfl | rfl)
    · exact ampInt_near_of_sin_eq _ sin_twelfth_turn (by ring)
    · exact ampInt_near_of_sin_eq _ hfiveTwelfths (by ring)
  · rw [← sub_neg_eq_add]
    rintro (rfl | rfl)
    · exact ampInt_near_of_sin_eq _ (sin_add_half_turn sin_twelfth_turn (by norm_num)) (by ring)
    · exact ampInt_near_of_sin_eq _ (sin_add_half_turn hfiveTwelfths (by norm_num)) (by ring)

end Sys2Proof.Machine

namespace Sys2Proof.Machine

/-! ## Every session ends (R245, R250) -/

/-- The invariant holds and no slot is pending: the next step is the sequencer's. -/
structure Unattended (s : State) : Prop where
  inv : Inv s
  inbox : s.inbox = []

/-- No move of the sequencer adds a pending slot or takes one. -/
theorem sequencerMove_inbox {s t : State} (hm : sequencerMove s = .next t) : t.inbox = s.inbox := by
  obtain ⟨xs, es, -, -, hmove⟩ := coreIgnoresHost s s t rfl hm
  injection hm.symm.trans hmove with ht
  exact (congrArg State.inbox ht :)

theorem Unattended.runFor {n : Nat} {s t : State} (hs : Unattended s) (hr : runFor n s = .next t) :
    Unattended t := by
  induction n generalizing s with
  | zero => cases hr; exact hs
  | succ n ih =>
    rw [Machine.runFor, step_sequencer hs.inbox] at hr
    cases hm : sequencerMove s with
    | next u =>
      rw [hm, onNext_next] at hr
      exact ih ⟨inv_sequencerMove hs.inv hm, (sequencerMove_inbox hm).trans hs.inbox⟩ hr
    | fault r => rw [hm] at hr; cases hr
    | refused r => rw [hm] at hr; cases hr

/-- Some number of steps, with no fault and no refusal, leads to `IDLE` with an outcome. -/
def SessionEnds (s : State) : Prop := ∃ n t, runFor n s = .next t ∧ t.phase = .idle ∧ t.result ≠ .none

theorem SessionEnds.of_runFor {n : Nat} {s t : State} (hr : runFor n s = .next t) (ht : SessionEnds t) :
    SessionEnds s := by
  obtain ⟨m, u, hu, hend⟩ := ht
  exact ⟨n + m, u, by rw [runFor_add, hr, onNext_next, hu], hend⟩

/-- One step is enough where the move ends the session. -/
theorem sessionEnds_of_move {s t : State} (hi : s.inbox = []) (hm : sequencerMove s = .next t) (hp : t.phase = .idle)
    (hr : t.result ≠ .none) : SessionEnds s :=
  ⟨1, t, runFor_succ hi hm 0, hp, hr⟩

/-- A session that stands at a position ends, whatever else the state holds. -/
def EndsFrom (ph : Phase) : Prop := ∀ s, Unattended s → s.phase = ph → SessionEnds s

/-- The sequencer runs on from one position to another from which the session ends. -/
theorem EndsFrom.of_runFor {ph ph' : Phase} (hend : EndsFrom ph')
    (hrun : ∀ s, Unattended s → s.phase = ph → ∃ n t, runFor n s = .next t ∧ t.phase = ph') : EndsFrom ph := by
  intro s hs hp
  obtain ⟨n, t, hr, hp'⟩ := hrun s hs hp
  exact .of_runFor hr (hend t (hs.runFor hr) hp')

/-- A single move between the two positions. -/
theorem EndsFrom.of_move {ph ph' : Phase} (hend : EndsFrom ph')
    (hmove : ∀ s, Unattended s → s.phase = ph → ∃ t, sequencerMove s = .next t ∧ t.phase = ph') : EndsFrom ph :=
  hend.of_runFor fun s hs hp =>
    have ⟨t, hm, hp'⟩ := hmove s hs hp
    ⟨1, t, runFor_succ hs.inbox hm 0, hp'⟩

/-! ### The synthesizer's positions, the last one first (R191) -/

theorem endsFrom_done : EndsFrom (.synthesizing .done) := fun _ hs hp =>
  sessionEnds_of_move hs.inbox (move_done hp) rfl nofun

theorem endsFrom_post : EndsFrom (.synthesizing .post) :=
  endsFrom_done.of_move fun _ hs hp =>
    have ⟨_, _, _, _, hf, _⟩ := hs.inv.sessionAt hp
    ⟨_, move_post hp hf, rfl⟩

theorem endsFrom_data : EndsFrom (.synthesizing .data) := by
  refine endsFrom_post.of_runFor fun s hs hp => ?_
  obtain ⟨-, -, -, -, hf, -⟩ := hs.inv.sessionAt hp
  rw [goTo_cfg] at hf
  have hu : ∀ u ∈ s.bits.drop s.syn.unitPos, u ≠ 0b11#2 := fun u h => hs.inv.bits_units u (List.mem_of_mem_drop h)
  obtain ⟨t, ht, -⟩ := unitSegments_frame Config.impl hf hu s
  have hrun := runFor_data _ hp hs.inbox hf hu rfl
  rw [ht, mapNext_next] at hrun
  exact ⟨_, _, hrun, rfl⟩

theorem endsFrom_pre : EndsFrom (.synthesizing .pre) :=
  endsFrom_data.of_move fun _ hs hp =>
    have ⟨_, _, _, _, hf, _⟩ := hs.inv.sessionAt hp
    ⟨_, move_pre hp hf, rfl⟩

/-- `S_CHECK` ends the session with `INVALID_CONFIG` or lets it go on. -/
theorem endsFrom_check : EndsFrom (.synthesizing .check) := by
  intro s hs hp
  cases hf : fatalConfig s.cfg.params with
  | some e =>
    have hmove := move_check_fatal hp hf
    rw [raise_fatalConfig_eq hf] at hmove
    exact sessionEnds_of_move hs.inbox hmove rfl nofun
  | none =>
    have hrun := runFor_succ hs.inbox (move_check_ok hp hf) 0
    exact .of_runFor hrun (endsFrom_pre _ (hs.runFor hrun) rfl)

/-! ### The encoder's positions, the last one first (R151) -/

theorem endsFrom_summary : EndsFrom (.encoding .summary) :=
  endsFrom_check.of_move fun _ _ hp => ⟨_, move_summary hp, rfl⟩

theorem endsFrom_close (k : Fin 2) : EndsFrom (.encoding (.close k)) := by
  have hlast : EndsFrom (.encoding (.close 1)) := endsFrom_summary.of_move fun _ _ hp => ⟨_, move_close hp, rfl⟩
  match k with
  | 0 => exact hlast.of_move fun _ _ hp => ⟨_, move_close hp, rfl⟩
  | 1 => exact hlast

theorem endsFrom_body : EndsFrom (.encoding .body) :=
  (endsFrom_close 0).of_runFor fun _ hs hp => ⟨_, _, runFor_body _ hp hs.inbox rfl, rfl⟩

theorem endsFrom_start (k : Fin 3) : EndsFrom (.encoding (.start k)) := by
  have hlast : EndsFrom (.encoding (.start 2)) := endsFrom_body.of_move fun _ _ hp => ⟨_, move_start hp, rfl⟩
  have hsecond : EndsFrom (.encoding (.start 1)) := hlast.of_move fun _ _ hp => ⟨_, move_start hp, rfl⟩
  match k with
  | 0 => exact hsecond.of_move fun _ _ hp => ⟨_, move_start hp, rfl⟩
  | 1 => exact hsecond
  | 2 => exact hlast

theorem endsFrom_textEvents (k : Fin 2) : EndsFrom (.encoding (.textEvents k)) := by
  have hlast : EndsFrom (.encoding (.textEvents 1)) :=
    (endsFrom_start 0).of_move fun _ _ hp => ⟨_, move_encBegin hp, rfl⟩
  match k with
  | 0 => exact hlast.of_move fun _ _ hp => ⟨_, move_textEvent hp, rfl⟩
  | 1 => exact hlast

/-- Wherever the sequencer stands in a session, the session ends. -/
theorem endsFrom_of_ne_idle {ph : Phase} (h : ph ≠ .idle) : EndsFrom ph := by
  cases ph with
  | idle => exact absurd rfl h
  | encoding e =>
    cases e with
    | textEvents k => exact endsFrom_textEvents k
    | start k => exact endsFrom_start k
    | body => exact endsFrom_body
    | close k => exact endsFrom_close k
    | summary => exact endsFrom_summary
  | synthesizing q =>
    cases q with
    | check => exact endsFrom_check
    | pre => exact endsFrom_pre
    | data => exact endsFrom_data
    | post => exact endsFrom_post
    | done => exact endsFrom_done

/-- Settles O50: an idle machine is where it should be, and a session ends from every position. -/
theorem everySessionEnds : Obligations.EverySessionEnds := by
  intro s hinv hi
  by_cases hp : s.phase = .idle
  · exact ⟨0, s, rfl, hp, (absurd hp ·)⟩
  · obtain ⟨n, t, hr, hidle, hres⟩ := endsFrom_of_ne_idle hp s ⟨hinv, hi⟩ rfl
    exact ⟨n, t, hr, hidle, fun _ => hres⟩

end Sys2Proof.Machine

namespace Sys2Proof.Machine

/-! ## The guard (R242, R243) -/

/-- The white space of R243, listed. -/
theorem isWs_iff (c : Elem) : isWs c = true ↔ c.toNat ∈ [0x9, 0xA, 0xB, 0xC, 0xD, 0x20] := by
  simp only [isWs, Bool.or_eq_true, Bool.and_eq_true, decide_eq_true_eq, beq_iff_eq, List.mem_cons, List.not_mem_nil,
    or_false]
  omega

theorem guardText_blank {s : State} (h : blank s.txt = true) : guardText s = raise .emptyInput s := if_pos h

theorem guardText_text {s : State} (h : blank s.txt = false) : guardText s = s := if_neg (by simp [h])

/-- GRD returns its verdict on the state the guard leaves (R242). -/
theorem exec_grd {s : State} {b : Bool} (h : blank s.txt = b) :
    exec .grd s = .next (answer (.blank b) (guardText s)) := by subst h; rfl

/-- Settles O22: the guard raises `EmptyInput` or leaves the state alone. -/
theorem guardMeaning : Obligations.GuardMeaning := by
  refine ⟨fun text => ?_, fun s => ⟨fun hb => ?_, fun hb => ?_⟩⟩
  · simp only [blank, List.all_eq_true, isWs_iff]
  · rw [exec_grd hb, guardText_blank hb]; rfl
  · rw [exec_grd hb, guardText_text hb]; rfl

end Sys2Proof.Machine

namespace Sys2Proof.Machine

/-! ## `transmit` (R240, R270 to R272, R278, R282) -/

/-- The baud rate of a whole number of hundredths that fits the register is converted exactly (R282). -/
theorem centibaud_hundredths (q : HostImpl) {n : Int} (hlo : -2 ^ 31 ≤ n) (hhi : n < 2 ^ 31) :
    (centibaud q (n / 100)).toInt = n := by
  have hcb : 100 * ((n : Rat) / 100) = n := mul_div_cancel₀ _ (by norm_num)
  unfold centibaud
  rw [hcb, if_pos ⟨Rat.den_intCast n, hlo, hhi⟩, Rat.num_intCast]
  exact BitVec.toInt_ofInt_eq_self (by decide) hlo hhi

/-- The write of the verbose flag: its bit, zero-extended (R29, R247). -/
theorem busWrite_ofBool (n : Nat) (b : Bool) :
    busWrite n (BitVec.ofBool b) = .request (.regWr n (if b = true then 1 else 0)) := by cases b <;> rfl

section Transmit

variable {s : State}

theorem hostMove_transmit (text : List Elem) (st : Settings) (h : s.hostSide.tx = false) :
    hostMove (.transmit text st) s = .next (onHost (fun h => { h with tx := true, save := st.save })
      { s with inbox := transmitRequests Config.hostImpl text st ++ s.inbox }) := if_neg (by simp [h])

/-- Releasing the prior session's device appends its event, if the host emits one, and reaches the host's side (R272,
R280, N24). -/
theorem releasePrior_eq (q : HostImpl) (s : State) : releasePrior q s = { s with
    evt := s.evt ++ if s.hostSide.dev.isSome = true ∧ q.priorStopEvent = true
      then [eventOf .txStopped .none] else []
    hostSide := if s.hostSide.dev.isSome = true then releaseDevice q s.hostSide else s.hostSide } := by
  unfold releasePrior
  split_ifs <;> simp_all [onHost, pushEvent, eventOf]

/-- The rest of `transmit` after an `OK`: the prior device released, the wait over, and then the new device or the error
(R271, R272, R278). -/
theorem settle_ok (q : HostImpl) (acquired : Bool) (htx : s.hostSide.tx = true) (hp : s.phase = .idle)
    (hr : s.result = .ok) :
    settleTransmission q acquired s =
      if acquired then
        onHost (fun h => { h with tx := false, dev := some ⟨s.pcm, 0, h.save⟩ }) { releasePrior q s with pcm := [] }
      else raise .deviceAcquisitionFailure (onHost (fun h => { h with tx := false }) (releasePrior q s)) := by
  rw [settleTransmission, if_pos ⟨htx, hp⟩, if_pos hr]
  rfl

theorem settle_not_ok (q : HostImpl) (acquired : Bool) (htx : s.hostSide.tx = true) (hp : s.phase = .idle)
    (hr : s.result ≠ .ok) :
    settleTransmission q acquired s = onHost (fun h => { h with tx := false }) s := by
  rw [settleTransmission, if_pos ⟨htx, hp⟩, if_neg hr]

/-- Before the CORE is back in `IDLE`, and with no `transmit` that waits, nothing happens (R271). -/
theorem settle_early (q : HostImpl) (acquired : Bool) (h : s.phase ≠ .idle ∨ s.hostSide.tx = false) :
    settleTransmission q acquired s = s := by
  refine if_neg fun ⟨htx, hp⟩ => ?_
  rcases h with h | h
  · exact h hp
  · simp [h] at htx

end Transmit

/-- Settles O57: the requests are `transmitRequests`, and the rest of `transmit` is by the CORE's position and result. -/
theorem transmitMeaning : Obligations.TransmitMeaning := by
  refine ⟨fun text st s h => ?_, fun text st s h => if_pos h, ?_, ?_⟩
  · rw [hostMove_transmit text st h, transmitRequests, busWrite_ofBool]; rfl
  · rintro q _ n rfl hlo hhi
    exact centibaud_hundredths q hlo hhi
  · rintro s _ _ rfl rfl
    refine ⟨fun htx hp hr => ?_, fun htx hp hr b => ?_, fun h b => ?_⟩
    · simp only [hostMove, settle_ok _ _ htx hp hr, releasePrior_eq]
      cases s.hostSide.dev.isSome <;> exact ⟨rfl, rfl⟩
    · rw [hostMove, settle_not_ok _ _ htx hp hr]; rfl
    · rw [hostMove, settle_early _ _ h]

end Sys2Proof.Machine

namespace Sys2Proof.Machine

/-! ## The end of a playback and `stop()` (R270, R273 to R280) -/

section PlaybackEnd

variable {s : State} {d : Playback}

/-! ### The poll (R273, R274) -/

/-- With no device, and with a write in flight, the polling is over. -/
theorem pollPlayback_off (h : s.hostSide.dev = none ∨ s.hostSide.job.isSome = true) : pollPlayback s = .next s := by
  unfold pollPlayback
  split
  next hd hj => simp [hd, hj] at h
  next => rfl

theorem pollPlayback_before_end (hd : s.hostSide.dev = some d) (hj : s.hostSide.job = none)
    (hp : d.position < d.buffer.length) : pollPlayback s = .next s := by
  simp only [pollPlayback, hd, hj, if_pos hp]

/-- The poll at the end of the buffer, by the save flag and by whether the file fits (R274, R276). -/
theorem pollPlayback_at_end (hd : s.hostSide.dev = some d) (hj : s.hostSide.job = none)
    (hp : d.buffer.length ≤ d.position) :
    pollPlayback s =
      if d.save then
        if wavFits d.buffer then
          .next (onHost (fun h => { h with job := some (wavImage d.buffer) }) (pushEvent .playbackFinished .none s))
        else .refused .wavTooLong
      else .next (onHost (fun h => { h with dev := none })
        (pushEvent .txComplete .none (pushEvent .playbackFinished .none s))) := by
  simp only [pollPlayback, hd, hj, if_neg hp.not_gt]

/-! ### The end of a write (R276, R277, R279, R280) -/

/-- The event that reports a write: the location of the file, or the cause of the failure. -/
def writeEvent : WriteResult → Event
  | .saved location => eventOf .saved (.text location)
  | .failed cause => eventOf .persistFail (.text cause)

theorem writeEvent_kind (r : WriteResult) : (writeEvent r).kind = .saved ∨ (writeEvent r).kind = .persistFail := by
  cases r with
  | saved location => exact .inl rfl
  | failed cause => exact .inr rfl

/-- Reporting a write, failed or not, appends its one event (R304). -/
theorem reportWrite_eq (r : WriteResult) (s : State) : reportWrite r s = { s with evt := s.evt ++ [writeEvent r] } := by
  cases r <;> rfl

theorem finishWrite_none (r : WriteResult) (hj : s.hostSide.job = none) : finishWrite r s = s := by
  simp only [finishWrite, hj]

/-- The session's write ends: its result and "transmission complete", in this order, and the device is released. -/
theorem finishWrite_some (r : WriteResult) {image : List Byte} (hj : s.hostSide.job = some image) :
    finishWrite r s = { s with
      evt := s.evt ++ [writeEvent r, eventOf .txComplete .none]
      hostSide := { keepFile r image s.hostSide with dev := none, job := none } } := by
  simp only [finishWrite, hj, reportWrite_eq, onHost, pushEvent, eventOf, List.append_assoc, List.cons_append,
    List.nil_append]

theorem finishOrphan_none (q : HostImpl) (r : WriteResult) {k : Nat} (hk : s.hostSide.orphans[k]? = none) :
    finishOrphan q k r s = s := by
  simp only [finishOrphan, hk]

/-- A write of a stopped session ends: no event but its result, and that only if the host reports it. -/
theorem finishOrphan_some (q : HostImpl) (r : WriteResult) {k : Nat} {image : List Byte}
    (hk : s.hostSide.orphans[k]? = some image) :
    finishOrphan q k r s = { s with
      evt := s.evt ++ if q.reportAfterStop = true then [writeEvent r] else []
      hostSide := { keepFile r image s.hostSide with orphans := s.hostSide.orphans.eraseIdx k } } := by
  simp only [finishOrphan, hk]
  split_ifs
  · rw [reportWrite_eq]; rfl
  · rw [List.append_nil]; rfl

/-- What the end of a write of a stopped session appends to `EVT` is at most the report of a write. -/
theorem finishOrphan_evt (q : HostImpl) (k : Nat) (r : WriteResult) (s : State) :
    ∃ es, (finishOrphan q k r s).evt = s.evt ++ es ∧ ∀ e ∈ es, e = writeEvent r := by
  cases hk : s.hostSide.orphans[k]? with
  | none => exact ⟨[], by simp [finishOrphan_none q r hk], by simp⟩
  | some image =>
    refine ⟨_, congrArg State.evt (finishOrphan_some q r hk), fun e he => ?_⟩
    split_ifs at he
    · exact List.mem_singleton.1 he
    · cases he

/-! ### `stop()` (R270, R275) -/

theorem sessionActive_iff {h : HostSide} :
    sessionActive h = true ↔ h.dev.isSome = true ∨ h.tx = true ∨ h.job.isSome = true := by
  simp only [sessionActive, Bool.or_eq_true]
  tauto

theorem sessionActive_eq_false {h : HostSide} :
    sessionActive h = false ↔ h.dev = none ∧ h.tx = false ∧ h.job = none := by
  simp only [← Bool.not_eq_true, sessionActive_iff, not_or, Option.not_isSome_iff_eq_none]

/-- A host without a session is `Idle`, wherever the CORE stands (R270). -/
theorem controllerState_of_inactive (h : sessionActive s.hostSide = false) : controllerState s = .idle := by
  obtain ⟨hd, htx, hj⟩ := sessionActive_eq_false.1 h
  simp [controllerState, hostState, htx, hd, hj]

/-- With no session `stop()` emits its event or does nothing (N26). -/
theorem stopTransmission_inactive (q : HostImpl) (h : sessionActive s.hostSide = false) :
    stopTransmission q s = { s with
      evt := s.evt ++ if q.idleStopEvent = true then [eventOf .txStopped .none] else [] } := by
  rw [stopTransmission, if_neg (by simp [h])]
  split_ifs
  · rfl
  · rw [List.append_nil]

theorem stopTransmission_active (q : HostImpl) (h : sessionActive s.hostSide = true) :
    stopTransmission q s = { s with
      evt := s.evt ++ [eventOf .txStopped .none]
      hostSide := { releaseDevice q s.hostSide with tx := false } } := if_pos h

/-- After `stop()` there is no session, whether there was one or not. -/
theorem stopTransmission_ends (q : HostImpl) (s : State) : sessionActive (stopTransmission q s).hostSide = false := by
  cases h : sessionActive s.hostSide with
  | true => rw [stopTransmission_active q h]; rfl
  | false => rw [stopTransmission_inactive q h]; exact h

end PlaybackEnd

/-- Settles O58: the poll by its cases, and the end of a write by its result. -/
theorem playbackEnds : Obligations.PlaybackEnds := by
  refine ⟨fun s h => pollPlayback_off h, fun r s hj => congrArg _ (finishWrite_none r hj), fun d s hd =>
    ⟨pollPlayback_before_end hd, fun hj hp hs => ?_, fun hj hp hs hf => ?_, fun hj hp hs hf => ?_, fun image hj => ?_⟩⟩
  · simp [hostMove, pollPlayback_at_end hd hj hp, hs, onHost, pushEvent, EvKind.tag]
  · rw [hostMove, pollPlayback_at_end hd hj hp, if_pos hs, if_pos hf]; rfl
  · rw [hostMove, pollPlayback_at_end hd hj hp, if_pos hs, if_neg (by simp [hf])]
  · exact ⟨fun location => congrArg _ (finishWrite_some _ hj), fun cause => congrArg _ (finishWrite_some _ hj)⟩

/-- Settles O59: after `stop()` there is no session, so all that can still end is a write of a stopped one. -/
theorem stopMeaning : Obligations.StopMeaning := by
  refine fun s => ⟨fun hd htx hj => ?_, fun h => ?_, fun k r hk => congrArg _ (finishOrphan_none _ r hk),
    fun k image hk => ⟨fun location => congrArg _ (finishOrphan_some _ _ hk),
      fun cause => congrArg _ (finishOrphan_some _ _ hk)⟩⟩
  · exact congrArg _ (stopTransmission_inactive _ (sessionActive_eq_false.2 ⟨hd, htx, hj⟩))
  · have hends := stopTransmission_ends Config.hostImpl s
    have hidle := controllerState_of_inactive hends
    obtain ⟨hdev, -, hjob⟩ := sessionActive_eq_false.1 hends
    refine ⟨stopTransmission Config.hostImpl s, rfl, stopTransmission_active _ (sessionActive_iff.2 h), hidle,
      fun hp => ?_, pollPlayback_off (.inl hdev), fun r => ⟨congrArg _ (finishWrite_none r hjob), fun k => ?_⟩⟩
    · rw [controllerPath, if_pos ⟨rfl, hp⟩, hidle]
    · obtain ⟨es, hevt, hes⟩ := finishOrphan_evt Config.hostImpl k r (stopTransmission Config.hostImpl s)
      exact ⟨_, es, rfl, hevt, fun e he => hes e he ▸ writeEvent_kind r⟩

end Sys2Proof.Machine
